-- ==== Sys2Proof/Word.lean ====
section
/-! DEFINITION. The data types of the block: bytes, 32-bit integers, AES Words, the MD4 accumulator and the byte
windows (00_scope R9 to R11). Types only; what is computed with them stands under Machine/. -/

namespace Sys2Proof

/-- A byte (R9). -/
abbrev Byte := BitVec 8

/-- A 32-bit unsigned integer: a bus word or an MD4 accumulator word (R9, R40). -/
abbrev Word32 := BitVec 32

/-- A 64-bit unsigned integer: COUNT, ARG and the bit length of the padding (R31, R39, R163). -/
abbrev Word64 := BitVec 64

/-- An offset into the 1024-byte register window, `0x000` to `0x3FF` (R22, R60). -/
abbrev Offset := BitVec 10

/-- A byte window of `n` bytes (R30): a byte sequence, never an integer. -/
abbrev Window (n : Nat) := Vector Byte n

/-- An AES Word: a sequence of exactly four bytes, `b0` its "first byte" (R10, R120). -/
structure AesWord where
  b0 : Byte
  b1 : Byte
  b2 : Byte
  b3 : Byte
deriving DecidableEq, Repr, Inhabited

/-- The MD4 accumulator `H[0..3]`, the words conventionally named A, B, C, D (R40). -/
structure HashState where
  a : Word32
  b : Word32
  c : Word32
  d : Word32
deriving DecidableEq, Repr, Inhabited

/-- The state of the MD4 computation: accumulator (R40), absorbed-length counter (R39) and the partial-block
buffer, whose fill level is `count mod 64` (R41). -/
structure MdState where
  h : HashState
  count : Word64
  buf : Window 64
deriving DecidableEq, Repr, Inhabited

end Sys2Proof
end

