-- ==== Sys2Proof/Syntax.lean ====
section
/-! DEFINITION. The commands of the block: one constructor per row of spec/opcode_table.json (30_encoding R94). -/

namespace Sys2Proof

/-- A decoded command. The two immediates are the numbers R91 reads from IMM8: a round number and a byte count;
every other operand is implicit. -/
inductive Instr where
  | nop
  | boXor
  | boRot
  | boSub
  | boRcon (n : Nat)
  | ksInit
  | ksStep
  | ksExpand
  | mdInit
  | mdLoaddig
  | mdSetcnt
  | mdUpdate (n : Nat)
  | mdFinal
  | mdPadgen
deriving DecidableEq, Repr, Inhabited

end Sys2Proof
end

