-- ==== Sys2Proof/WellFormed.lean ====
section
/-! DEFINITION. Which commands have an encoding: an immediate fits the 8-bit field IMM8 (30_encoding R90, R91). A
range narrower than IMM8 (round 1 to 10, count 0 to 64) is no matter of encoding (R94): the command itself checks it. -/

namespace Sys2Proof

/-- The immediate is an 8-bit unsigned value, 0 to 255 (R91). -/
def Instr.wellFormed : Instr → Bool
  | .boRcon n => n < 256
  | .mdUpdate n => n < 256
  | .nop | .boXor | .boRot | .boSub => true
  | .ksInit | .ksStep | .ksExpand => true
  | .mdInit | .mdLoaddig | .mdSetcnt | .mdFinal | .mdPadgen => true

end Sys2Proof
end

