-- ==== Sys2Proof/Decode.lean ====
section
/-! DEFINITION. Decoding of a command word, total and rejecting by name, and the encoder (30_encoding R90 to R96). -/

namespace Sys2Proof

/-- Why a word is no command (R92, R95). All three are reported as ILLEGAL_CMD. -/
inductive DecodeError where
  /-- RSV, bits 23:8, is not 0 (R92). -/
  | reservedBitsSet
  /-- The opcode is not in the table of R94 (R95). -/
  | unassignedOpcode
  /-- IMM8 is not 0 on a command without an immediate (R92). -/
  | immediateNotZero
deriving DecidableEq, Repr

/-- OP, bits 31:24 of the command word (R90). -/
def opField (w : Word32) : Byte := w.extractLsb' 24 8

/-- RSV, bits 23:8 of the command word (R90). -/
def rsvField (w : Word32) : BitVec 16 := w.extractLsb' 8 16

/-- IMM8, bits 7:0 of the command word (R90). -/
def immField (w : Word32) : Byte := w.extractLsb' 0 8

/-- The opcode map of R94: the command of an opcode, given the immediate read as an unsigned number. -/
def opcodeRow (op : Byte) (n : Nat) : Option Instr :=
  match op.toNat with
  | 0x00 => some .nop
  | 0x01 => some .boXor
  | 0x02 => some .boRot
  | 0x03 => some .boSub
  | 0x04 => some (.boRcon n)
  | 0x10 => some .ksInit
  | 0x11 => some .ksStep
  | 0x12 => some .ksExpand
  | 0x20 => some .mdInit
  | 0x21 => some .mdLoaddig
  | 0x22 => some .mdSetcnt
  | 0x23 => some (.mdUpdate n)
  | 0x24 => some .mdFinal
  | 0x25 => some .mdPadgen
  | _ => none

/-- The two commands that use IMM8 (R90). -/
def Instr.takesImmediate : Instr → Bool
  | .boRcon _ => true
  | .mdUpdate _ => true
  | .nop | .boXor | .boRot | .boSub => false
  | .ksInit | .ksStep | .ksExpand => false
  | .mdInit | .mdLoaddig | .mdSetcnt | .mdFinal | .mdPadgen => false

/-- Decoding of R96: RSV first, then the opcode, then IMM8. -/
def decodeWord (w : Word32) : Except DecodeError Instr :=
  if rsvField w ≠ 0 then .error .reservedBitsSet
  else match opcodeRow (opField w) (immField w).toNat with
    | none => .error .unassignedOpcode
    | some i =>
      if immField w ≠ 0 ∧ i.takesImmediate = false then .error .immediateNotZero
      else .ok i

/-- The decoder on a row of the opcode table: the row's bits are those of the one command word (R90). -/
def decodeTableWord (nbits w : Nat) : Option Instr :=
  match decodeWord (BitVec.ofNat 32 (w % 2 ^ nbits)) with
  | .ok i => some i
  | .error _ => none

/-- The opcode of a command (R94). -/
def Instr.opcode : Instr → Byte
  | .nop => 0x00
  | .boXor => 0x01
  | .boRot => 0x02
  | .boSub => 0x03
  | .boRcon _ => 0x04
  | .ksInit => 0x10
  | .ksStep => 0x11
  | .ksExpand => 0x12
  | .mdInit => 0x20
  | .mdLoaddig => 0x21
  | .mdSetcnt => 0x22
  | .mdUpdate _ => 0x23
  | .mdFinal => 0x24
  | .mdPadgen => 0x25

/-- The IMM8 of a command: its immediate, and 0 where it takes none (R90, R92). -/
def Instr.immediate : Instr → Nat
  | .boRcon n => n
  | .mdUpdate n => n
  | .nop | .boXor | .boRot | .boSub => 0
  | .ksInit | .ksStep | .ksExpand => 0
  | .mdInit | .mdLoaddig | .mdSetcnt | .mdFinal | .mdPadgen => 0

/-- The command word of format C: OP, RSV = 0, IMM8 (R90). -/
def encode (i : Instr) : Word32 :=
  i.opcode ++ (0 : BitVec 16) ++ BitVec.ofNat 8 i.immediate

end Sys2Proof
end

