-- ==== Sys2Proof/Config.lean ====
section
/-! DEFINITION. What the spec leaves open: the free values of 93_implementation_defined, as constants with no body, and
the parameter BASE (00_scope R8). The parameter LAT is no constant: it is the place of the engine's turns in
`State.schedule` (log entry 1). -/

namespace Sys2Proof

/-- The storage that R44 leaves UNSPECIFIED at reset (93 U1). -/
structure ResetContents where
  arg : Word64
  opa : AesWord
  opb : AesWord
  res : AesWord
  key : Window 16
  din : Window 16
  msg : Window 64
  pad : Window 128
  rk : Vector AesWord 44
  h : HashState
  buf : Window 64
deriving DecidableEq, Repr, Inhabited

/-- Free value: what the storage of `ResetContents` holds after a reset during a run (93 U1, U16; log entry 4). -/
opaque Config.resetContents : Nat → ResetContents

/-- Free value: what a read of UNSPECIFIED bytes returns (93 U3, U4; log entries 5 and 6). -/
opaque Config.freeRead : Nat → Word32

/-- Which 1024-byte window of the platform's address space is the block's (R8: BASE is open). -/
opaque Config.windowIndex : Nat

/-- BASE, a multiple of 1024 (R8). No rule of the block depends on it (log entry 13). -/
def Config.base : Nat := 1024 * Config.windowIndex

/-- The address the host presents for a window offset, `BASE + off` (R60). -/
def Config.address (off : Offset) : Nat := Config.base + off.toNat

end Sys2Proof
end

