-- ==== Sys2Proof/Machine/State.lean ====
section
/-! DEFINITION. The state of the block (10_state R21), the moves of its two agents, the reasons to stop, and reset
(10_state R44). BUSY, KSV, ERR, ERRCODE, DOUT and IRQ are views of these fields (Machine/Flags.lean, Operands.lean). -/

namespace Sys2Proof.Machine

/-- The nine error codes of R200 (NONE is their absence). -/
inductive ErrorCode where
  | illegalCmd
  | invalidKeySize
  | ksSequence
  | badRound
  | badLength
  | badCount
  | busyWrite
  | badAccess
  | mdSequence
deriving DecidableEq, Repr

/-- The guarded registers and windows that hold operands (R70, CMD apart): KEY_LEN (R27), ARG (R31), OPA and OPB
(R32), KEY (R33), DIN (R34), MSG (R36). PENDING captures all of them at acceptance (R42, R77; log entry 9). -/
structure Operands where
  keyLen : Byte
  arg : Word64
  opa : AesWord
  opb : AesWord
  key : Window 16
  din : Window 16
  msg : Window 64
deriving DecidableEq, Repr

/-- PENDING when it is not empty: the accepted command and its operand values (R42). -/
structure Pending where
  instr : Instr
  operands : Operands
deriving DecidableEq, Repr

/-- A host access (R60): window offset, size in bytes, and for a write the value. A size of 1 uses the value's low
byte; a size other than 1 and 4 is refused, whatever the value (log entry 14). -/
inductive Access where
  | read (off : Offset) (size : Nat)
  | write (off : Offset) (size : Nat) (value : Word32)
deriving DecidableEq, Repr

/-- One move of an agent: a host access, a turn of the engine (LAT, R252), or the reset input taking a level (R240). -/
inductive Move where
  | host (a : Access)
  | engine
  | resetInput (asserted : Bool)
deriving DecidableEq, Repr

/-- What a host read returned (R60, R256). -/
structure Reply where
  off : Offset
  size : Nat
  value : Word32
deriving DecidableEq, Repr

/-- The whole state (R21), and the model's own fields `replies`, `draws` and `schedule`. -/
structure State where
  /-- KEY_LEN, ARG, OPA, OPB, KEY, DIN, MSG. -/
  operands : Operands
  /-- CTRL.IE (R26). -/
  ieFlag : Bool
  /-- STATUS.DONE (R25). -/
  doneFlag : Bool
  /-- STATUS.ERR and STATUS.ERRCODE: `none` is ERR = 0 with ERRCODE = 0x00 (R25, R203). -/
  error : Option ErrorCode
  /-- STATUS.MDV (R25). -/
  mdvFlag : Bool
  /-- KCOUNT.N (R28). -/
  kcount : BitVec 6
  /-- RK, the round-key Words (R38). -/
  rk : Vector AesWord 44
  /-- RES (R32). -/
  res : AesWord
  /-- PADLEN.PL (R29). -/
  padlen : Byte
  /-- PAD (R37). -/
  pad : Window 128
  /-- H, COUNT and BUF (R39 to R41). -/
  md : MdState
  /-- PENDING; STATUS.BUSY is its presence (R42). -/
  pending : Option Pending
  /-- The level of the reset input (R240). -/
  inReset : Bool
  /-- What the host has read so far, newest first (the model's own; log entry 2). -/
  replies : List Reply
  /-- Counter for the free values of Config (the model's own; log entries 4 to 6). -/
  draws : Nat
  /-- The moves still to come, next one first (the model's own; log entry 1). -/
  schedule : List Move
deriving DecidableEq, Repr

/-- Why a step stops. -/
inductive Fault where
  /-- Raised by `hostMove` for an access while reset is asserted: the spec gives such an access no step (R242, 93 U7).
  Safe: the model stops where the spec says nothing. -/
  | hostAccessInReset
  /-- Raised by `runCommand` at the completion of a pending command whose own checks fail: only accepted commands are
  pending (R201), so no run reaches it (log entry 10). Safe: the model stops. -/
  | pendingRejected
deriving DecidableEq, Repr

/-- Why there is no meaning to run. -/
inductive Refusal where
  /-- Answered by a dispatch arm whose instruction has no meaning in the model; no arm does so now. Safe: the model
  stops. -/
  | notModelled (mnemonic : String)
deriving DecidableEq, Repr

/-- The zero contents that `State.reset` names for the UNSPECIFIED storage (DESIGN CHOICE, unsafe: log entry 3). -/
def zeroContents : ResetContents where
  arg := 0
  opa := ⟨0, 0, 0, 0⟩
  opb := ⟨0, 0, 0, 0⟩
  res := ⟨0, 0, 0, 0⟩
  key := Vector.replicate 16 0
  din := Vector.replicate 16 0
  msg := Vector.replicate 64 0
  pad := Vector.replicate 128 0
  rk := Vector.replicate 44 ⟨0, 0, 0, 0⟩
  h := ⟨0, 0, 0, 0⟩
  buf := Vector.replicate 64 0

/-- The state after reset (R44, R240), for arbitrary contents of the UNSPECIFIED storage (93 U1: "a model takes the
reset contents as an unconstrained argument"). -/
def State.resetWith (c : ResetContents) : State where
  operands :=
    { keyLen := 0, arg := c.arg, opa := c.opa, opb := c.opb, key := c.key, din := c.din, msg := c.msg }
  ieFlag := false
  doneFlag := false
  error := none
  mdvFlag := false
  kcount := 0
  rk := c.rk
  res := c.res
  padlen := 0
  pad := c.pad
  md := { h := c.h, count := 0, buf := c.buf }
  pending := none
  inReset := false
  replies := []
  draws := 0
  schedule := []

/-- The machine right after reset: `State.resetWith` at the contents log entry 3 names. -/
def State.reset : State := State.resetWith zeroContents

end Sys2Proof.Machine
end

