-- ==== Sys2Proof/Machine/Operands.lean ====
section
/-! DEFINITION. Byte orders and operand forms: big-endian bus lanes (20_memory R62, R63), little-endian MD4 words (R64),
AES Words as bytes and as numbers (00_scope R10, R11), and the serialisation of the accumulator (43_md4 R165). -/

namespace Sys2Proof.Machine

/-- Entry `i` of a fixed-length sequence; the default past its end, where no rule reads. -/
def vget {α : Type} [Inhabited α] {n : Nat} (v : Vector α n) (i : Nat) : α := v[i]?.getD default

/-- The sequence with entry `i` replaced; unchanged past its end, where no rule writes. -/
def vset {α : Type} {n : Nat} (v : Vector α n) (i : Nat) (x : α) : Vector α n := v.setIfInBounds i x

/-- Byte `k` of a bus word in big-endian lanes: bits `31-8k : 24-8k` (R62). -/
def laneByte (x : Word32) (k : Nat) : Byte := x.extractLsb' (24 - 8 * k) 8

/-- The bus word whose lanes hold these bytes, the first in bits 31:24 (R63). -/
def laneWord (b0 b1 b2 b3 : Byte) : Word32 := b0 ++ b1 ++ b2 ++ b3

/-- `LE32` of four bytes (R11). -/
def le32 (b0 b1 b2 b3 : Byte) : Word32 := b3 ++ b2 ++ b1 ++ b0

/-- Byte `k` of `LE32inv(x)`: `x[8k+7:8k]` (R11). -/
def le32Byte (x : Word32) (k : Nat) : Byte := x.extractLsb' (8 * k) 8

/-- `LE64inv(x)`: eight bytes, byte `k` equal to `x[8k+7:8k]` (R11). -/
def le64inv (x : Word64) : List Byte := (List.range 8).map fun k => x.extractLsb' (8 * k) 8

/-- `rotl32(x, s)`, for `1 <= s <= 31` (R11). -/
def rotl32 (x : Word32) (s : Nat) : Word32 := (x <<< s) ||| (x >>> (32 - s))

/-- Byte `k` of an AES Word, `k = 0` being the first (R10). -/
def wordByte (w : AesWord) (k : Nat) : Byte :=
  match k with
  | 0 => w.b0
  | 1 => w.b1
  | 2 => w.b2
  | _ => w.b3

/-- The AES Word with byte `k` replaced. -/
def setWordByte (w : AesWord) (k : Nat) (b : Byte) : AesWord :=
  match k with
  | 0 => { w with b0 := b }
  | 1 => { w with b1 := b }
  | 2 => { w with b2 := b }
  | _ => { w with b3 := b }

/-- `wordval(w)`, the number whose printed hex is the printed byte sequence (R10). -/
def wordval (w : AesWord) : Word32 := laneWord w.b0 w.b1 w.b2 w.b3

/-- Key Word `j`, the bytes `4j..4j+3` of the key in order (R33, R64). -/
def keyWord (key : Window 16) (j : Nat) : AesWord :=
  ⟨vget key (4 * j), vget key (4 * j + 1), vget key (4 * j + 2), vget key (4 * j + 3)⟩

/-- Accumulator word `H[j]`, `j` in 0..3 (R40). -/
def hashWord (h : HashState) (j : Nat) : Word32 :=
  match j with
  | 0 => h.a
  | 1 => h.b
  | 2 => h.c
  | _ => h.d

/-- `Ser(h)`, the little-endian serialisation of the accumulator, 16 bytes (R165, R35). -/
def ser (h : HashState) : Window 16 := Vector.ofFn fun i => le32Byte (hashWord h (i.val / 4)) (i.val % 4)

/-- The little-endian integer of the four window bytes from `4j` on (R64). -/
def leGroup {n : Nat} (w : Window n) (j : Nat) : Word32 :=
  le32 (vget w (4 * j)) (vget w (4 * j + 1)) (vget w (4 * j + 2)) (vget w (4 * j + 3))

/-- `Deser(d)`: each 4-byte group read as a little-endian accumulator word (R165). -/
def deser (d : Window 16) : HashState := ⟨leGroup d 0, leGroup d 1, leGroup d 2, leGroup d 3⟩

end Sys2Proof.Machine
end

