-- ==== Sys2Proof/Machine/Flags.lean ====
section
/-! DEFINITION. The status flags and the control registers as the host sees them: STATUS (10_state R25), CTRL (R26),
KEY_LEN (R27), KCOUNT (R28), PADLEN (R29), the error codes (60_exceptions R200) and the interrupt output (R220). -/

namespace Sys2Proof.Machine

/-- The code held in STATUS.ERRCODE (R200). -/
def ErrorCode.code : ErrorCode → Byte
  | .illegalCmd => 0x01
  | .invalidKeySize => 0x02
  | .ksSequence => 0x03
  | .badRound => 0x04
  | .badLength => 0x05
  | .badCount => 0x06
  | .busyWrite => 0x07
  | .badAccess => 0x08
  | .mdSequence => 0x09

/-- STATUS.BUSY: PENDING is not empty (R42). -/
def State.busy (s : State) : Bool := s.pending.isSome

/-- STATUS.ERR (R203). -/
def State.errFlag (s : State) : Bool := s.error.isSome

/-- STATUS.ERRCODE: 0x00 when ERR = 0 (R25). -/
def State.errCode (s : State) : Byte :=
  match s.error with
  | none => 0x00
  | some e => e.code

/-- STATUS.KSV: the key schedule is valid, KCOUNT = 44 (R25). -/
def State.ksv (s : State) : Bool := s.kcount == 44

/-- STATUS (R25): BUSY bit 0, DONE bit 1, ERR bit 2, KSV bit 3, MDV bit 4, ERRCODE bits 15:8, the rest 0. -/
def State.statusWord (s : State) : Word32 :=
  (0 : BitVec 16) ++ s.errCode ++ (0 : BitVec 3) ++ BitVec.ofBool s.mdvFlag ++ BitVec.ofBool s.ksv ++
    BitVec.ofBool s.errFlag ++ BitVec.ofBool s.doneFlag ++ BitVec.ofBool s.busy

/-- CTRL: IE in bit 0, the rest 0 (R26). -/
def State.ctrlWord (s : State) : Word32 := (BitVec.ofBool s.ieFlag).setWidth 32

/-- KEY_LEN: LEN in bits 7:0, the rest 0 (R27). -/
def State.keyLenWord (s : State) : Word32 := s.operands.keyLen.setWidth 32

/-- KCOUNT: N in bits 5:0, the rest 0 (R28). -/
def State.kcountWord (s : State) : Word32 := s.kcount.setWidth 32

/-- PADLEN: PL in bits 7:0, the rest 0 (R29). -/
def State.padlenWord (s : State) : Word32 := s.padlen.setWidth 32

/-- The interrupt output: `CTRL.IE and (STATUS.DONE or STATUS.ERR)` (R220). -/
def State.irq (s : State) : Bool := s.ieFlag && (s.doneFlag || s.errFlag)

end Sys2Proof.Machine
end

