-- ==== Sys2Proof/Machine/Ops.lean ====
section
/-! DEFINITION. The shared operations on the state: recording an error and clearing it (60_exceptions R203, R206: what this
block has in place of taking an exception and returning from one, R205), issue and completion of a command (R201,
70_reset R251), the reset input (R240, R241), and the record of a host read. -/

namespace Sys2Proof.Machine

/-- `raise ERROR(code)`: the first error since ERR was cleared is kept (R203). -/
def State.raise (e : ErrorCode) (s : State) : State :=
  match s.error with
  | none => { s with error := some e }
  | some _ => s

/-- A write of 1 to STATUS.ERR: ERR and ERRCODE are cleared together (R25, R206). -/
def State.clearError (s : State) : State := { s with error := none }

/-- DONE cleared, by the issue of a command (R201) or a host write of 1 (R25). -/
def State.clearDone (s : State) : State := { s with doneFlag := false }

/-- Acceptance: PENDING takes the command and the operand values (R201, R42). -/
def State.accept (i : Instr) (s : State) : State := { s with pending := some ⟨i, s.operands⟩ }

/-- The end of the completion transition: PENDING empty, BUSY 0, DONE 1 (R251). -/
def State.complete (s : State) : State := { s with pending := none, doneFlag := true }

/-- The reset input taking a level (R240). Asserted: every piece of state takes its reset value, whatever was pending
(R241). Released after having been asserted: the same. Not asserted and not released: nothing. The UNSPECIFIED storage
holds a free value (93 U16; log entry 4); the host's own fields go on. -/
def State.driveReset (asserted : Bool) (s : State) : State :=
  if asserted || s.inReset then
    { State.resetWith (Config.resetContents s.draws) with
      inReset := asserted, replies := s.replies, draws := s.draws + 1, schedule := s.schedule }
  else s

/-- A host read has returned `v` (R60, R256). -/
def State.reply (off : Offset) (n : Nat) (v : Word32) (s : State) : State :=
  { s with replies := ⟨off, n, v⟩ :: s.replies }

/-- A fresh draw of free values (log entry 5). -/
def State.draw (s : State) : State := { s with draws := s.draws + 1 }

/-- The start of every issue (R201): while ERR = 1 the command is ignored, no effect at all; otherwise DONE is cleared
and the issue goes on. -/
def beginIssue (s : State) (k : State → Host.Outcome State Fault Refusal) : Host.Outcome State Fault Refusal :=
  if s.errFlag then .next s else k s.clearDone

/-- The two phases of a command (R110, R250), told apart by PENDING. With PENDING empty, the command is being issued:
its checks decide between rejection and acceptance (R201). With PENDING not empty, it is being completed: its effect is
applied to the operand values captured at acceptance (R251). -/
def runCommand (i : Instr) (check : Operands → State → Option ErrorCode) (effect : Operands → State → State)
    (s : State) : Host.Outcome State Fault Refusal :=
  match s.pending with
  | none =>
    beginIssue s fun s' =>
      match check s'.operands s' with
      | some e => .next (s'.raise e)
      | none => .next (s'.accept i)
  | some p =>
    match check p.operands s with
    | some _ => .fault .pendingRejected
    | none => .next (effect p.operands s).complete

end Sys2Proof.Machine
end

