-- ==== Sys2Proof/Machine/ByteOps.lean ====
section
/-! DEFINITION. The ByteOps word functions (41_byteops R120) and commands (R124 to R127). -/

namespace Sys2Proof.Machine

/-- `XorWord(a, b)`, lane by lane (R120). -/
def xorWord (a b : AesWord) : AesWord := ⟨a.b0 ^^^ b.b0, a.b1 ^^^ b.b1, a.b2 ^^^ b.b2, a.b3 ^^^ b.b3⟩

/-- `RotWord(w)`, left by one byte (R120). -/
def rotWord (w : AesWord) : AesWord := ⟨w.b1, w.b2, w.b3, w.b0⟩

/-- `SubWord(w)`, each byte through the S-box (R120). -/
def subWord (w : AesWord) : AesWord := ⟨sbox w.b0, sbox w.b1, sbox w.b2, sbox w.b3⟩

/-- `RconWord(n)` for `1 <= n <= 10` (R120). No accepted command reads it outside that range: BO_RCON checks its
round, and the key schedule uses 1 to 10 only. -/
def rconWord (n : Nat) : AesWord := ⟨(rcEntry n).getD 0, 0, 0, 0⟩

/-- RES written by a ByteOps command (R32). -/
def State.setRes (w : AesWord) (s : State) : State := { s with res := w }

/-- BO_XOR (R124): RES is the XOR of OPA and OPB. -/
def execBoXor (s : State) : Host.Outcome State Fault Refusal :=
  runCommand .boXor (fun _ _ => none) (fun o s => s.setRes (xorWord o.opa o.opb)) s

/-- BO_ROT (R125): RES is OPA rotated left by one byte. -/
def execBoRot (s : State) : Host.Outcome State Fault Refusal :=
  runCommand .boRot (fun _ _ => none) (fun o s => s.setRes (rotWord o.opa)) s

/-- BO_SUB (R126): RES is OPA through the S-box. -/
def execBoSub (s : State) : Host.Outcome State Fault Refusal :=
  runCommand .boSub (fun _ _ => none) (fun o s => s.setRes (subWord o.opa)) s

/-- The check of BO_RCON: `1 <= n <= 10`, else BAD_ROUND (R127). -/
def checkRound (n : Nat) : Option ErrorCode :=
  if 1 ≤ n ∧ n ≤ 10 then none else some .badRound

/-- BO_RCON (R127): RES is the round-constant Word of round `n`. -/
def execBoRcon (n : Nat) (s : State) : Host.Outcome State Fault Refusal :=
  runCommand (.boRcon n) (fun _ _ => checkRound n) (fun _ s => s.setRes (rconWord n)) s

end Sys2Proof.Machine
end

