-- ==== Sys2Proof/Machine/Control.lean ====
section
/-! DEFINITION. The control command (40_control R112). -/

namespace Sys2Proof.Machine

/-- NOP (R112): no check, no effect but the completion itself. -/
def execNop (s : State) : Host.Outcome State Fault Refusal :=
  runCommand .nop (fun _ _ => none) (fun _ s => s) s

end Sys2Proof.Machine
end

