-- ==== Sys2Proof/Machine/KeySchedule.lean ====
section
/-! DEFINITION. The AES-128 key expansion (42_keyschedule R140) and its commands (R142 to R144). -/

namespace Sys2Proof.Machine

/-- `NextWord(i, w)` for `4 <= i <= 43`, the Words below `i` being defined (R140). -/
def nextWord (i : Nat) (w : List AesWord) : AesWord :=
  let t := w.getD (i - 1) default
  let t := if i % 4 = 0 then xorWord (subWord (rotWord t)) (rconWord (i / 4)) else t
  xorWord (w.getD (i - 4) default) t

/-- `Expand(k)`, the 44 Words in order (R140). -/
def expand (k : Window 16) : List AesWord :=
  (List.range' 4 40).foldl (fun w i => w ++ [nextWord i w]) ((List.range 4).map (keyWord k))

/-- RK and KCOUNT written by a key-schedule command (R28, R38). -/
def State.setSchedule (rk : Vector AesWord 44) (n : BitVec 6) (s : State) : State :=
  { s with rk := rk, kcount := n }

/-- Key acceptance: KEY_LEN.LEN = 16, else INVALID_KEY_SIZE; the key bytes are not validated (R141). -/
def checkKeySize (o : Operands) : Option ErrorCode :=
  if o.keyLen = 16 then none else some .invalidKeySize

/-- KS_INIT (R142): RK[0..3] are the key Words and N is 4. RK[4..43] are not written; they are UNSPECIFIED to a reader,
which `readUnspecified` says (R38). -/
def execKsInit (s : State) : Host.Outcome State Fault Refusal :=
  runCommand .ksInit (fun o _ => checkKeySize o)
    (fun o s => s.setSchedule ((List.range 4).foldl (fun rk j => vset rk j (keyWord o.key j)) s.rk) 4) s

/-- The check of KS_STEP: `4 <= KCOUNT.N <= 43`, else KS_SEQUENCE (R143). -/
def checkKsStep (s : State) : Option ErrorCode :=
  if 4 ≤ s.kcount.toNat ∧ s.kcount.toNat ≤ 43 then none else some .ksSequence

/-- KS_STEP (R143): with `i = KCOUNT.N`, RK[i] is `NextWord(i, RK)` and N is `i + 1`. -/
def execKsStep (s : State) : Host.Outcome State Fault Refusal :=
  runCommand .ksStep (fun _ s => checkKsStep s)
    (fun _ s =>
      let i := s.kcount.toNat
      s.setSchedule (vset s.rk i (nextWord i s.rk.toList)) (s.kcount + 1)) s

/-- KS_EXPAND (R144): RK is the whole expansion of KEY and N is 44. -/
def execKsExpand (s : State) : Host.Outcome State Fault Refusal :=
  runCommand .ksExpand (fun o _ => checkKeySize o)
    (fun o s => s.setSchedule (Vector.ofFn fun i => (expand o.key).getD i.val default) 44) s

end Sys2Proof.Machine
end

