-- ==== Sys2Proof/Machine/Md4.lean ====
section
/-! DEFINITION. The MD4 engine: compression (43_md4 R161, R162), padding (R163), absorption (R166) and the commands
(R171 to R179). -/

namespace Sys2Proof.Machine

/-- The auxiliary function of a round: F, G and Hf (R161, R162). -/
def roundFunction (r : Round) (x y z : Word32) : Word32 :=
  match r with
  | .one => (x &&& y) ||| (~~~x &&& z)
  | .two => (x &&& y) ||| (x &&& z) ||| (y &&& z)
  | .three => x ^^^ y ^^^ z

/-- One of the sixteen steps of a round on `(a, b, c, d)`, for the message words of `blk` (R162). -/
def compressStep (blk : Window 64) (r : Round) (v : HashState) (j : Nat) : HashState :=
  let x := leGroup blk (messageOrder r j) + roundConstant r
  let s := shiftAmount r (j % 4)
  match j % 4 with
  | 0 => { v with a := rotl32 (v.a + roundFunction r v.b v.c v.d + x) s }
  | 1 => { v with d := rotl32 (v.d + roundFunction r v.a v.b v.c + x) s }
  | 2 => { v with c := rotl32 (v.c + roundFunction r v.d v.a v.b + x) s }
  | _ => { v with b := rotl32 (v.b + roundFunction r v.c v.d v.a + x) s }

/-- A whole round: sixteen steps in order (R162). -/
def compressRound (blk : Window 64) (v : HashState) (r : Round) : HashState :=
  (List.range 16).foldl (compressStep blk r) v

/-- `Compress(h, blk)` (R162). -/
def compress (h : HashState) (blk : Window 64) : HashState :=
  let v := [Round.one, Round.two, Round.three].foldl (compressRound blk) h
  ⟨h.a + v.a, h.b + v.b, h.c + v.c, h.d + v.d⟩

/-- The length of `Pad(L)` (R164, conflict C1). -/
def padLength (l : Word64) : Nat :=
  let extra := l.toNat % 64
  if extra < 56 then 64 - extra else 128 - extra

/-- `Pad(L)`: the marker 0x80, zero fill, and the bit length in 8 little-endian bytes, modulo 2^64 (R163). -/
def padBytes (l : Word64) : List Byte :=
  0x80 :: List.replicate (padLength l - 9) 0 ++ le64inv (8 * l)

/-- `Absorb(x)` (R166). -/
def absorb (m : MdState) (x : Byte) : MdState :=
  let buf := vset m.buf (m.count.toNat % 64) x
  let count := m.count + 1
  { h := if count.toNat % 64 = 0 then compress m.h buf else m.h, count := count, buf := buf }

/-- Bytes absorbed one after the other (R175, R177). -/
def absorbAll (m : MdState) (xs : List Byte) : MdState := xs.foldl absorb m

/-- H, COUNT and BUF written by an MD command (R39 to R41). -/
def State.setMd (m : MdState) (s : State) : State := { s with md := m }

/-- A computation started: H given, COUNT 0, MDV 1 (R171, R172). -/
def State.startMd (h : HashState) (s : State) : State :=
  { s with md := { s.md with h := h, count := 0 }, mdvFlag := true }

/-- MD_INIT (R171): H is IV, COUNT is 0, MDV is 1. -/
def execMdInit (s : State) : Host.Outcome State Fault Refusal :=
  runCommand .mdInit (fun _ _ => none) (fun _ s => s.startMd md4IV) s

/-- MD_LOADDIG (R172): H is the deserialised DIN, COUNT is 0, MDV is 1. -/
def execMdLoaddig (s : State) : Host.Outcome State Fault Refusal :=
  runCommand .mdLoaddig (fun _ _ => none) (fun o s => s.startMd (deser o.din)) s

/-- The check `MDV = 1`, else MD_SEQUENCE, and then the checks that follow it (R173, R175, R177). -/
def checkMdv (s : State) (more : Option ErrorCode) : Option ErrorCode :=
  if s.mdvFlag then more else some .mdSequence

/-- The checks of MD_SETCNT in order: MDV; no partial block; ARG a multiple of 64 (R173). -/
def checkSetcnt (o : Operands) (s : State) : Option ErrorCode :=
  checkMdv s <|
    if s.md.count.toNat % 64 ≠ 0 then some .badCount
    else if o.arg.toNat % 64 ≠ 0 then some .badCount
    else none

/-- MD_SETCNT (R173): COUNT is ARG. -/
def execMdSetcnt (s : State) : Host.Outcome State Fault Refusal :=
  runCommand .mdSetcnt checkSetcnt (fun o s => s.setMd { s.md with count := o.arg }) s

/-- The checks of MD_UPDATE in order: MDV; `n <= 64`, else BAD_LENGTH (R175). -/
def checkUpdate (n : Nat) (s : State) : Option ErrorCode :=
  checkMdv s (if n ≤ 64 then none else some .badLength)

/-- MD_UPDATE (R175): MSG[0..n) is absorbed in order. -/
def execMdUpdate (n : Nat) (s : State) : Host.Outcome State Fault Refusal :=
  runCommand (.mdUpdate n) (fun _ s => checkUpdate n s)
    (fun o s => s.setMd (absorbAll s.md (o.msg.toList.take n))) s

/-- MD_FINAL (R177): `Pad(COUNT)` is absorbed. -/
def execMdFinal (s : State) : Host.Outcome State Fault Refusal :=
  runCommand .mdFinal (fun _ s => checkMdv s none)
    (fun _ s => s.setMd (absorbAll s.md (padBytes s.md.count))) s

/-- PADLEN and PAD written by MD_PADGEN: the padding, then zeros to the end of the window (R37, R179). -/
def State.setPadding (p : List Byte) (s : State) : State :=
  { s with padlen := BitVec.ofNat 8 p.length, pad := Vector.ofFn fun i => p.getD i.val 0 }

/-- MD_PADGEN (R179): the padding for the length ARG. -/
def execMdPadgen (s : State) : Host.Outcome State Fault Refusal :=
  runCommand .mdPadgen (fun _ _ => none) (fun o s => s.setPadding (padBytes o.arg)) s

end Sys2Proof.Machine
end

