-- ==== Sys2Proof/Machine/Dispatch.lean ====
section
/-! DEFINITION. The dispatch: one arm per command (30_encoding R94). -/

namespace Sys2Proof.Machine

def exec (i : Instr) (s : State) : Host.Outcome State Fault Refusal :=
  match i with
  | .nop => Sys2Proof.Machine.execNop s
  | .boXor => Sys2Proof.Machine.execBoXor s
  | .boRot => Sys2Proof.Machine.execBoRot s
  | .boSub => Sys2Proof.Machine.execBoSub s
  | .boRcon n => Sys2Proof.Machine.execBoRcon n s
  | .ksInit => Sys2Proof.Machine.execKsInit s
  | .ksStep => Sys2Proof.Machine.execKsStep s
  | .ksExpand => Sys2Proof.Machine.execKsExpand s
  | .mdInit => Sys2Proof.Machine.execMdInit s
  | .mdLoaddig => Sys2Proof.Machine.execMdLoaddig s
  | .mdSetcnt => Sys2Proof.Machine.execMdSetcnt s
  | .mdUpdate n => Sys2Proof.Machine.execMdUpdate n s
  | .mdFinal => Sys2Proof.Machine.execMdFinal s
  | .mdPadgen => Sys2Proof.Machine.execMdPadgen s

end Sys2Proof.Machine
end

