-- ==== Sys2Proof/Machine/RegisterMap.lean ====
section
/-! DEFINITION. The register map (10_state R24), the order of the access checks (20_memory R66), and the bytes of each
place as the host reads and writes them (R62, R63, R65). -/

namespace Sys2Proof.Machine

/-- The named registers and windows of R24. -/
inductive Place where
  | cmd | status | ctrl | keyLen | kcount | padlen | countHi | countLo | argHi | argLo
  | opa | opb | res | key | din | dout | msg | pad | rk
deriving DecidableEq, Repr

/-- One row of the register map: offset, size in bytes, whether a host may write it, and whether it is guarded (R23). -/
structure Region where
  place : Place
  base : Nat
  size : Nat
  writable : Bool
  guarded : Bool
deriving DecidableEq, Repr

/-- The register map of R24; every offset not listed is unmapped. -/
def registerMap : List Region := [
  ⟨.cmd, 0x000, 4, true, true⟩,
  ⟨.status, 0x004, 4, true, false⟩,
  ⟨.ctrl, 0x008, 4, true, false⟩,
  ⟨.keyLen, 0x00C, 4, true, true⟩,
  ⟨.kcount, 0x010, 4, false, false⟩,
  ⟨.padlen, 0x014, 4, false, false⟩,
  ⟨.countHi, 0x018, 4, false, false⟩,
  ⟨.countLo, 0x01C, 4, false, false⟩,
  ⟨.argHi, 0x020, 4, true, true⟩,
  ⟨.argLo, 0x024, 4, true, true⟩,
  ⟨.opa, 0x030, 4, true, true⟩,
  ⟨.opb, 0x034, 4, true, true⟩,
  ⟨.res, 0x038, 4, false, false⟩,
  ⟨.key, 0x040, 16, true, true⟩,
  ⟨.din, 0x050, 16, true, true⟩,
  ⟨.dout, 0x060, 16, false, false⟩,
  ⟨.msg, 0x080, 64, true, true⟩,
  ⟨.pad, 0x100, 128, false, false⟩,
  ⟨.rk, 0x200, 176, false, false⟩]

/-- The row of the map an offset lies in, if any (R24). -/
def regionAt (off : Offset) : Option Region :=
  registerMap.find? fun r => r.base ≤ off.toNat && off.toNat < r.base + r.size

/-- The checks of R66 in their order, the first failing one deciding; otherwise the place and the byte index in it. -/
def resolve (isWrite : Bool) (off : Offset) (n : Nat) (busy : Bool) : Except ErrorCode (Place × Nat) :=
  if n ≠ 1 ∧ n ≠ 4 then .error .badAccess
  else if n = 4 ∧ off.toNat % 4 ≠ 0 then .error .badAccess
  else match regionAt off with
    | none => .error .badAccess
    | some r =>
      if isWrite ∧ r.writable = false then .error .badAccess
      else if isWrite ∧ r.place = .cmd ∧ n = 1 then .error .badAccess
      else if isWrite ∧ r.guarded ∧ busy then .error .busyWrite
      else .ok (r.place, off.toNat - r.base)

/-- Output state (R43). -/
def Place.isOutput : Place → Bool
  | .res | .kcount | .rk | .padlen | .pad | .countHi | .countLo | .dout => true
  | .cmd | .status | .ctrl | .keyLen | .argHi | .argLo | .opa | .opb | .key | .din | .msg => false

/-- Whether a read returns UNSPECIFIED bytes: output state while BUSY = 1 (R43, R71, 93 U4), where the reserved bits of
KCOUNT and PADLEN, which otherwise read 0 (R28, R29, R68, 93 U13), are free too (DESIGN CHOICE, safe: log entry 5), and `RK[i]` with
`i >= KCOUNT.N` once a key schedule has been started (R38, 93 U3). With KCOUNT.N = 0 no command has written RK since
reset: its bytes are those of the reset (93 U1; log entry 6). -/
def readUnspecified (p : Place) (i : Nat) (s : State) : Bool :=
  (s.busy && p.isOutput) || (p == .rk && s.kcount != 0 && decide (s.kcount.toNat ≤ i / 4))

/-- Byte `i` of a place: lane `i` of a register (R62), byte `i` of a window (R63). A read of CMD gives 0 (R68); DOUT is
the serialised accumulator (R35). -/
def placeByte (p : Place) (i : Nat) (s : State) : Byte :=
  match p with
  | .cmd => 0
  | .status => laneByte s.statusWord i
  | .ctrl => laneByte s.ctrlWord i
  | .keyLen => laneByte s.keyLenWord i
  | .kcount => laneByte s.kcountWord i
  | .padlen => laneByte s.padlenWord i
  | .countHi => laneByte (s.md.count.extractLsb' 32 32) i
  | .countLo => laneByte (s.md.count.extractLsb' 0 32) i
  | .argHi => laneByte (s.operands.arg.extractLsb' 32 32) i
  | .argLo => laneByte (s.operands.arg.extractLsb' 0 32) i
  | .opa => wordByte s.operands.opa i
  | .opb => wordByte s.operands.opb i
  | .res => wordByte s.res i
  | .key => vget s.operands.key i
  | .din => vget s.operands.din i
  | .dout => vget (ser s.md.h) i
  | .msg => vget s.operands.msg i
  | .pad => vget s.pad i
  | .rk => wordByte (vget s.rk (i / 4)) (i % 4)

/-- Lane `k` of a 32-bit value replaced by a byte (R62, R65). -/
def setLane (x : Word32) (k : Nat) (b : Byte) : Word32 :=
  match k with
  | 0 => b ++ x.extractLsb' 0 24
  | 1 => x.extractLsb' 24 8 ++ b ++ x.extractLsb' 0 16
  | 2 => x.extractLsb' 16 16 ++ b ++ x.extractLsb' 0 8
  | _ => x.extractLsb' 8 24 ++ b

/-- The operand registers and windows with byte `i` of a place written (R27, R31 to R36, R65). Bits 31:8 of KEY_LEN are
reserved: a write to them is ignored (R68). -/
def Operands.writeByte (p : Place) (i : Nat) (b : Byte) (o : Operands) : Operands :=
  match p with
  | .keyLen => if i = 3 then { o with keyLen := b } else o
  | .argHi => { o with arg := setLane (o.arg.extractLsb' 32 32) i b ++ o.arg.extractLsb' 0 32 }
  | .argLo => { o with arg := o.arg.extractLsb' 32 32 ++ setLane (o.arg.extractLsb' 0 32) i b }
  | .opa => { o with opa := setWordByte o.opa i b }
  | .opb => { o with opb := setWordByte o.opb i b }
  | .key => { o with key := vset o.key i b }
  | .din => { o with din := vset o.din i b }
  | .msg => { o with msg := vset o.msg i b }
  | .cmd | .status | .ctrl => o
  | .kcount | .padlen | .countHi | .countLo | .res | .dout | .pad | .rk => o

/-- A byte written to STATUS: in lane 3 a 1 in bit 1 clears DONE and a 1 in bit 2 clears ERR and ERRCODE; every other
bit ignores the write (R25, R65). -/
def State.writeStatusByte (i : Nat) (b : Byte) (s : State) : State :=
  if i = 3 then
    let s := if b.getLsbD 1 then s.clearDone else s
    if b.getLsbD 2 then s.clearError else s
  else s

/-- A byte written to CTRL: bit 0 of lane 3 is IE, every other bit is reserved (R26). -/
def State.writeCtrlByte (i : Nat) (b : Byte) (s : State) : State :=
  if i = 3 then { s with ieFlag := b.getLsbD 0 } else s

/-- One byte of a successful write other than to CMD (R65, R69). -/
def State.writeByte (p : Place) (i : Nat) (b : Byte) (s : State) : State :=
  match p with
  | .status => s.writeStatusByte i b
  | .ctrl => s.writeCtrlByte i b
  | .keyLen | .argHi | .argLo | .opa | .opb | .key | .din | .msg =>
    { s with operands := s.operands.writeByte p i b }
  | .cmd | .kcount | .padlen | .countHi | .countLo | .res | .dout | .pad | .rk => s

/-- A successful write of `n` bytes from byte `i` of a place on: one lane, or the four lanes of a word, first lane bits
31:24 (R62, R63). -/
def State.writePlace (p : Place) (i n : Nat) (v : Word32) (s : State) : State :=
  if n = 1 then s.writeByte p i (v.extractLsb' 0 8)
  else (List.range 4).foldl (fun s k => s.writeByte p (i + k) (laneByte v k)) s

/-- The value a successful read of `n` bytes from byte `i` of a place on returns, where it is specified (R62, R63). -/
def placeValue (p : Place) (i n : Nat) (s : State) : Word32 :=
  if n = 1 then (placeByte p i s).setWidth 32
  else laneWord (placeByte p i s) (placeByte p (i + 1) s) (placeByte p (i + 2) s) (placeByte p (i + 3) s)

end Sys2Proof.Machine
end

