-- ==== Sys2Proof/Machine/Bus.lean ====
section
/-! DEFINITION. The moves of the agents: host accesses (20_memory R60, R66), the issue of a command word
(60_exceptions R201), the engine's turn (70_reset R251), and the reset input (R240). -/

namespace Sys2Proof.Machine

/-- `BusRead(off, n)` (R60, R66). A refused read returns 0 and records its error. A read of UNSPECIFIED bytes returns a
free value, a fresh one each time (93 U3, U4). Any other read changes nothing of the block (R69). -/
def busRead (off : Offset) (n : Nat) (s : State) : State :=
  match resolve false off n s.busy with
  | .error e => (s.raise e).reply off n 0
  | .ok (p, i) =>
    if readUnspecified p i s then
      let v := Config.freeRead s.draws
      s.draw.reply off n (if n = 1 then (v.extractLsb' 0 8).setWidth 32 else v)
    else s.reply off n (placeValue p i n s)

/-- The issue of a command word, BUSY being 0 (R201): an illegal word is rejected with ILLEGAL_CMD (R96), any other is
issued as its command. While ERR = 1 both are ignored. -/
def issue (w : Word32) (s : State) : Host.Outcome State Fault Refusal :=
  match decodeWord w with
  | .error _ => beginIssue s fun s' => .next (s'.raise .illegalCmd)
  | .ok i => exec i s

/-- `BusWrite(off, n, v)` (R60, R66). A refused write records its error and changes nothing else; a write of CMD issues
a command; every other write stores its bytes (R69). -/
def busWrite (off : Offset) (n : Nat) (v : Word32) (s : State) : Host.Outcome State Fault Refusal :=
  match resolve true off n s.busy with
  | .error e => .next (s.raise e)
  | .ok (.cmd, _) => issue v s
  | .ok (p, i) => .next (s.writePlace p i n v)

/-- A host access: no step while reset is asserted (R242, 93 U7). -/
def hostMove (a : Access) (s : State) : Host.Outcome State Fault Refusal :=
  if s.inReset then .fault .hostAccessInReset
  else match a with
    | .read off n => .next (busRead off n s)
    | .write off n v => busWrite off n v s

/-- A turn of the engine: the completion transition when PENDING is not empty, nothing otherwise (R251). -/
def engineMove (s : State) : Host.Outcome State Fault Refusal :=
  match s.pending with
  | some p => exec p.instr s
  | none => .next s

/-- One move, taken from the schedule. When no move is left the engine has its turn: an accepted command completes
eventually (R252, LAT; log entry 1). -/
def nextMove (s : State) : Host.Outcome State Fault Refusal :=
  match s.schedule with
  | [] => engineMove s
  | m :: rest =>
    let s := { s with schedule := rest }
    match m with
    | .host a => hostMove a s
    | .engine => engineMove s
    | .resetInput asserted => .next (s.driveReset asserted)

/-- The word `w` about to be written to CMD by the very next move, with nothing in its way: reset released, no command
pending and ERR = 0, so that the write is issued (log entry 12). -/
def State.placeCommand (w : Word32) (s : State) : State :=
  { s with inReset := false, pending := none, error := none,
           schedule := .host (.write 0x000 4 w) :: s.schedule }

end Sys2Proof.Machine
end

