-- ==== Sys2Proof/Machine/Step.lean ====
section
/-! DEFINITION. The step of the machine: one move of one agent. -/

namespace Sys2Proof.Machine

/-- One step: the next move of the schedule (20_memory R72, R75: one access at a time, atomic with respect to the
engine's transition). -/
def step (s : State) : Host.Outcome State Fault Refusal := nextMove s

/-- `s` with the command word `w` placed as the next write to CMD (log entry 12). -/
def State.withFetchWord (s : State) (nbits w : Nat) : State :=
  s.placeCommand (BitVec.ofNat 32 (w % 2 ^ nbits))

end Sys2Proof.Machine
end

