-- ==== Sys2Proof/Safety.lean ====
section
/-! DEFINITION. What the claims are about: the checks of a command, the legal states of the block, when the machine may
go on, and the MD4 digest the rules define. -/

namespace Sys2Proof.Machine

/-- The checks of each command's rule, in the rule's order, each with the error it raises when it fails (R127, R141,
R143, R173, R175, R177; the others have none). -/
def ruleChecks (i : Instr) (o : Operands) (s : State) : List (Bool × ErrorCode) :=
  match i with
  | .nop | .boXor | .boRot | .boSub => []
  | .boRcon n => [(1 ≤ n && n ≤ 10, .badRound)]
  | .ksInit | .ksExpand => [(o.keyLen.toNat = 16, .invalidKeySize)]
  | .ksStep => [(4 ≤ s.kcount.toNat && s.kcount.toNat ≤ 43, .ksSequence)]
  | .mdInit | .mdLoaddig | .mdPadgen => []
  | .mdSetcnt =>
    [(s.mdvFlag, .mdSequence), (s.md.count.toNat % 64 = 0, .badCount), (o.arg.toNat % 64 = 0, .badCount)]
  | .mdUpdate n => [(s.mdvFlag, .mdSequence), (n ≤ 64, .badLength)]
  | .mdFinal => [(s.mdvFlag, .mdSequence)]

/-- The error of the first failing check of a command (R201). -/
def firstFailing (i : Instr) (o : Operands) (s : State) : Option ErrorCode :=
  ((ruleChecks i o s).find? fun c => !c.1).map (·.2)

/-- The legal states of the block: what every run keeps. -/
structure State.Inv (s : State) : Prop where
  /-- KCOUNT.N is 0 or 4 to 44 (R28). -/
  kcount_legal : s.kcount.toNat = 0 ∨ (4 ≤ s.kcount.toNat ∧ s.kcount.toNat ≤ 44)
  /-- PADLEN.PL is 0, or 9 to 72 after an MD_PADGEN (R29). -/
  padlen_legal : s.padlen.toNat = 0 ∨ (9 ≤ s.padlen.toNat ∧ s.padlen.toNat ≤ 72)
  /-- The operand values PENDING holds are the registers' own (R77). -/
  captured : ∀ p, s.pending = some p → p.operands = s.operands
  /-- Only an accepted command is pending: its checks pass (R201). -/
  accepted : ∀ p, s.pending = some p → firstFailing p.instr p.operands s = none
  /-- DONE = 0 while BUSY = 1 (R25, R201, R251). -/
  busy_not_done : s.pending ≠ none → s.doneFlag = false
  /-- Nothing is pending while reset is asserted (R240). -/
  reset_idle : s.inReset = true → s.pending = none
  /-- COUNT is 0 until an MD4 computation is started (R39, R243). -/
  count_zero : s.mdvFlag = false → s.md.count = 0
  /-- The round-key Words computed so far follow the key expansion (R140, R146). -/
  schedule_ok : ∀ i, 4 ≤ i → i < s.kcount.toNat → vget s.rk i = nextWord i s.rk.toList

/-- The next move is this host access, and reset is not asserted. -/
def State.Presents (s : State) (a : Access) (rest : List Move) : Prop :=
  s.schedule = .host a :: rest ∧ s.inReset = false

/-- The next move is the engine's: its turn in the schedule, or the end of the schedule (R252; log entry 1). -/
def State.EngineTurn (s : State) (rest : List Move) : Prop :=
  s.schedule = .engine :: rest ∨ (s.schedule = [] ∧ rest = [])

/-- A legal access size, aligned (R60, R61). -/
abbrev LegalSize (off : Offset) (n : Nat) : Prop := n = 1 ∨ (n = 4 ∧ off.toNat % 4 = 0)

/-- The unmapped offsets (R24, 93 U14). -/
abbrev Unmapped (off : Offset) : Prop :=
  (0x028 ≤ off.toNat ∧ off.toNat ≤ 0x02F) ∨ (0x03C ≤ off.toNat ∧ off.toNat ≤ 0x03F) ∨
  (0x070 ≤ off.toNat ∧ off.toNat ≤ 0x07F) ∨ (0x0C0 ≤ off.toNat ∧ off.toNat ≤ 0x0FF) ∨
  (0x180 ≤ off.toNat ∧ off.toNat ≤ 0x1FF) ∨ (0x2B0 ≤ off.toNat ∧ off.toNat ≤ 0x3FF)

/-- KCOUNT, PADLEN, COUNT_HI, COUNT_LO; RES; DOUT; PAD; RK: the read-only targets (R67), which are the output state
(R43). -/
abbrev ReadOnly (off : Offset) : Prop :=
  (0x010 ≤ off.toNat ∧ off.toNat ≤ 0x01F) ∨ (0x038 ≤ off.toNat ∧ off.toNat ≤ 0x03B) ∨
  (0x060 ≤ off.toNat ∧ off.toNat ≤ 0x06F) ∨ (0x100 ≤ off.toNat ∧ off.toNat ≤ 0x17F) ∨
  (0x200 ≤ off.toNat ∧ off.toNat ≤ 0x2AF)

/-- ARG_HI, ARG_LO; OPA, OPB; KEY, DIN; MSG: the guarded places in which every bit is stored (R24, R70). -/
abbrev OperandStorage (off : Offset) : Prop :=
  (0x020 ≤ off.toNat ∧ off.toNat ≤ 0x027) ∨ (0x030 ≤ off.toNat ∧ off.toNat ≤ 0x037) ∨
  (0x040 ≤ off.toNat ∧ off.toNat ≤ 0x05F) ∨ (0x080 ≤ off.toNat ∧ off.toNat ≤ 0x0BF)

/-- KEY_LEN and the operand storage: the guarded registers other than CMD (R70). -/
abbrev GuardedStorage (off : Offset) : Prop :=
  (0x00C ≤ off.toNat ∧ off.toNat ≤ 0x00F) ∨ OperandStorage off

/-- STATUS and CTRL, never guarded (R70). -/
abbrev StatusOrCtrl (off : Offset) : Prop := 0x004 ≤ off.toNat ∧ off.toNat ≤ 0x00B

/-- The host's duty in reset: it makes no access while reset is asserted (R242, R257). -/
def State.HostKeepsOut (s : State) : Prop :=
  s.inReset = true → ∀ a rest, s.schedule ≠ .host a :: rest

/-- A command issued and then completed with nothing in between: its CMD write, then the engine's turn. -/
def runToCompletion (i : Instr) (s : State) : Option State :=
  match exec i s with
  | .next t =>
    match exec i t with
    | .next u => some u
    | .fault _ => none
    | .refused _ => none
  | .fault _ => none
  | .refused _ => none

/-- Commands run to completion one after the other. -/
def runAll : List Instr → State → Option State
  | [], s => some s
  | i :: is, s => (runToCompletion i s).bind (runAll is)

/-- What one MD_UPDATE absorbs: the first `n` bytes of the contents of MSG (R175). -/
structure Chunk where
  msg : Window 64
  n : Nat
deriving DecidableEq, Repr

/-- The bytes of a chunk, in order. -/
def Chunk.bytes (c : Chunk) : List Byte := c.msg.toList.take c.n

/-- Chunks absorbed one after the other, each placed in MSG and absorbed by one MD_UPDATE (R168, R185 step 4). -/
def absorbChunks : List Chunk → State → Option State
  | [], s => some s
  | c :: cs, s =>
    (runToCompletion (.mdUpdate c.n) { s with operands := { s.operands with msg := c.msg } }).bind (absorbChunks cs)

/-- A byte sequence cut into 64-byte blocks (R168), for a number of blocks. -/
def blocks : Nat → List Byte → List (Window 64)
  | 0, _ => []
  | k + 1, xs => (Vector.ofFn fun i => xs.getD i.val 0) :: blocks k (xs.drop 64)

/-- `m ‖ Pad(len(m))` (R168). -/
def padded (m : List Byte) : List Byte := m ++ padBytes (BitVec.ofNat 64 m.length)

/-- `MD4(m)`: `Ser` of `Compress` folded over the blocks of `m ‖ Pad(len(m))` from IV (R168). -/
def md4Digest (m : List Byte) : Window 16 :=
  ser ((blocks ((padded m).length / 64) (padded m)).foldl compress md4IV)

/-- The byte the block holds at an offset of the window, `none` at an unmapped one: what a host read of it returns when
it is specified (R24, R62, R63). -/
def State.byteAt (off : Offset) (s : State) : Option Byte :=
  (regionAt off).map fun r => placeByte r.place (off.toNat - r.base) s

/-- The value of the `n` bytes from an offset on, the first byte the most significant (R62, R63). -/
def State.valueAt (off : Offset) (n : Nat) (s : State) : Nat :=
  let byte (k : Nat) : Nat := ((s.byteAt (off + BitVec.ofNat 10 k)).getD 0).toNat
  if n = 1 then byte 0
  else byte 0 * 2 ^ 24 + byte 1 * 2 ^ 16 + byte 2 * 2 ^ 8 + byte 3

/-- Doubling in GF(2^8) with the polynomial 0x11B (R121). -/
def gfDouble (a : Byte) : Byte := (a <<< 1) ^^^ (if a.msb then 0x1B else 0)

/-- The product in GF(2^8) (R121). -/
def gfMul (a b : Byte) : Byte :=
  ((List.range 8).foldl (fun (acc, x) k => (if b.getLsbD k then acc ^^^ x else acc, gfDouble x)) ((0 : Byte), a)).1

/-- The affine map of the S-box, before the constant 0x63 (R121). -/
def sboxAffine (b : Byte) : Byte :=
  b ^^^ b.rotateLeft 1 ^^^ b.rotateLeft 2 ^^^ b.rotateLeft 3 ^^^ b.rotateLeft 4

end Sys2Proof.Machine
end

