-- ==== Sys2Proof/Certificates/Slice0/Obligations.lean ====
section
/-! DEFINITION. The statements for the provers. Each docstring names the rules of spec/ it comes from. -/

open Sys2Proof Sys2Proof.Machine

/-! ### Encoding (30_encoding) -/

/-- The opcode map of R94, transcribed again: opcode and command, for an immediate `n`. -/
def Sys2Proof.opcodeTable (n : Nat) : List (Nat × Instr) :=
  [(0x00, .nop), (0x01, .boXor), (0x02, .boRot), (0x03, .boSub), (0x04, .boRcon n),
   (0x10, .ksInit), (0x11, .ksStep), (0x12, .ksExpand),
   (0x20, .mdInit), (0x21, .mdLoaddig), (0x22, .mdSetcnt), (0x23, .mdUpdate n), (0x24, .mdFinal), (0x25, .mdPadgen)]

/-- Decoding an encoded well-formed command gives it back (R90, R91, R94). -/
def Obligations.DecodeOfEncode : Prop :=
  ∀ i : Instr, i.wellFormed = true → decodeWord (encode i) = .ok i

/-- A legal word is the encoding of the command it decodes to: no two words decode alike (R90, R92). -/
def Obligations.EncodeOfDecode : Prop :=
  ∀ (w : Word32) (i : Instr), decodeWord w = .ok i → i.wellFormed = true ∧ encode i = w

/-- Decoding is total and exact (R96): with OP, RSV and IMM8 the three fields of the word, RSV ≠ 0 is illegal, an opcode
outside the table of R94 is illegal, IMM8 ≠ 0 is illegal on an opcode other than 0x04 and 0x23, and every other word is
its row of the table; an illegal word, whichever the reason, is rejected with ILLEGAL_CMD when it is issued. -/
def Obligations.DecodeIsTotalAndExact : Prop :=
  ∀ w : Word32,
    let op := w.toNat / 2 ^ 24
    let rsv := w.toNat / 2 ^ 8 % 2 ^ 16
    let imm := w.toNat % 2 ^ 8
    (rsv ≠ 0 → ∃ e, decodeWord w = .error e) ∧
    ((∀ i, (op, i) ∉ opcodeTable imm) → ∃ e, decodeWord w = .error e) ∧
    (op ≠ 0x04 → op ≠ 0x23 → imm ≠ 0 → ∃ e, decodeWord w = .error e) ∧
    (∀ i, rsv = 0 → (op, i) ∈ opcodeTable imm → (op = 0x04 ∨ op = 0x23 ∨ imm = 0) → decodeWord w = .ok i) ∧
    (∀ e, decodeWord w = .error e → ∀ s : State, s.error = none →
      issue w s = .next { s with doneFlag := false, error := some .illegalCmd })

/-- Words written out from R90 and R94, and the illegal words of R100. -/
def Obligations.WorkedEncodingsDecode : Prop :=
  decodeWord 0x00000000 = .ok .nop ∧ decodeWord 0x0400000A = .ok (.boRcon 10) ∧
  decodeWord 0x12000000 = .ok .ksExpand ∧ decodeWord 0x23000040 = .ok (.mdUpdate 64) ∧
  decodeWord 0x23000041 = .ok (.mdUpdate 65) ∧
  decodeWord 0x12000001 = .error .immediateNotZero ∧ decodeWord 0x12000100 = .error .reservedBitsSet ∧
  decodeWord 0x26000000 = .error .unassignedOpcode

/-! ### Steps and issue (60_exceptions R201, 70_reset R251) -/

/-- A step runs the decoded command: a 4-byte write of its word to CMD with BUSY = 0 is `exec` of it on the state with
that move taken, and a turn of the engine is `exec` of the pending command. That the engine has its turn when no move is
left is the model's choice (log entry 1). -/
def Obligations.StepRunsTheCommand : Prop :=
  (∀ (s : State) (w : Word32) (i : Instr) (rest : List Move),
    s.Presents (.write 0x000 4 w) rest → s.pending = none → decodeWord w = .ok i →
    step s = exec i { s with schedule := rest }) ∧
  (∀ (s : State) (p : Pending) (rest : List Move),
    s.EngineTurn rest → s.pending = some p → step s = exec p.instr { s with schedule := rest })

/-- The word that `withFetchWord` places is the one the very next step runs (log entry 12). -/
def Obligations.PlacedWordRunsNext : Prop :=
  ∀ (s : State) (nbits w : Nat) (i : Instr), decodeTableWord nbits w = some i →
    step (s.withFetchWord nbits w) = exec i { s with inReset := false, pending := none, error := none }

/-- Issue of a command (R201), on a 4-byte write to CMD: while BUSY = 1 it is refused with BUSY_WRITE and the pending
command is unaffected; with ERR = 1 it is ignored; an illegal word, and a command with a failing check, are rejected
with DONE 0 and the error; any other command is accepted: PENDING holds it with its operand values, BUSY is 1, and the
engine's turn in the schedule executes it. -/
def Obligations.IssueOfACommand : Prop :=
  ∀ (s : State) (w : Word32) (rest : List Move), s.Presents (.write 0x000 4 w) rest →
    (s.pending ≠ none → step s = .next { s with schedule := rest, error := some (s.error.getD .busyWrite) }) ∧
    (s.pending = none → s.error ≠ none → step s = .next { s with schedule := rest }) ∧
    (∀ e, s.pending = none → s.error = none → decodeWord w = .error e →
      step s = .next { s with schedule := rest, doneFlag := false, error := some .illegalCmd }) ∧
    (∀ i e, s.pending = none → s.error = none → decodeWord w = .ok i → firstFailing i s.operands s = some e →
      step s = .next { s with schedule := rest, doneFlag := false, error := some e }) ∧
    (∀ i, s.pending = none → s.error = none → decodeWord w = .ok i → firstFailing i s.operands s = none →
      ∃ t, step s = .next t ∧
        t = { s with schedule := rest, doneFlag := false, pending := some ⟨i, s.operands⟩ } ∧ t.busy = true ∧
        ∀ later, rest = .engine :: later → step t = exec i { t with schedule := later })

/-- The engine's turn (R251), in the schedule or at its end (the latter the model's choice, log entry 1): with PENDING empty
nothing happens; an accepted command completes, PENDING is then empty,
BUSY 0 and DONE 1, and the completion raises no error and leaves the operand registers, IE and the host's record of reads
alone. -/
def Obligations.EngineCompletesAcceptedCommand : Prop :=
  ∀ (s : State) (rest : List Move), s.EngineTurn rest →
    (s.pending = none → step s = .next { s with schedule := rest }) ∧
    (∀ p, s.pending = some p → firstFailing p.instr p.operands s = none →
      ∃ t, step s = .next t ∧ t.pending = none ∧ t.busy = false ∧ t.doneFlag = true ∧ t.error = s.error ∧
        t.operands = s.operands ∧ t.ieFlag = s.ieFlag ∧ t.inReset = s.inReset ∧ t.replies = s.replies ∧
        t.draws = s.draws ∧ t.schedule = rest)

/-- The model's own stop (log entry 10): a pending command that one of its checks rejects, which is never accepted, has
no completion. -/
def Obligations.UnacceptedCommandStops : Prop :=
  ∀ (i : Instr) (o : Operands) (s : State), s.pending = some ⟨i, o⟩ → firstFailing i o s ≠ none →
    exec i s = .fault .pendingRejected

/-! ### Completion of each command: its effect, and nothing else but PENDING and DONE (R251) -/

/-- NOP (R112): no effect but the completion. -/
def Obligations.NopCompletes : Prop :=
  ∀ (s : State) (o : Operands), s.pending = some ⟨.nop, o⟩ →
    exec .nop s = .next { s with pending := none, doneFlag := true }

/-- BO_XOR and BO_ROT (R124, R125): RES is the byte-wise XOR of OPA and OPB; RES is OPA rotated left by one byte. -/
def Obligations.BoXorAndBoRotComplete : Prop :=
  (∀ (s : State) (o : Operands), s.pending = some ⟨.boXor, o⟩ →
    exec .boXor s = .next { s with
      res := ⟨o.opa.b0 ^^^ o.opb.b0, o.opa.b1 ^^^ o.opb.b1, o.opa.b2 ^^^ o.opb.b2, o.opa.b3 ^^^ o.opb.b3⟩
      pending := none, doneFlag := true }) ∧
  (∀ (s : State) (o : Operands), s.pending = some ⟨.boRot, o⟩ →
    exec .boRot s = .next { s with
      res := ⟨o.opa.b1, o.opa.b2, o.opa.b3, o.opa.b0⟩, pending := none, doneFlag := true })

/-- RotWord and BO_ROT as numbers (R120, R125): the number of RotWord of a Word is the Word's number rotated left by 8
bits, and BO_ROT completes with `wordval(RES) = rotl32(wordval(OPA), 8)`. -/
def Obligations.RotWordRotatesItsNumber : Prop :=
  (∀ w : AesWord, wordval (rotWord w) = rotl32 (wordval w) 8) ∧
  ∀ (s : State) (o : Operands), s.pending = some ⟨.boRot, o⟩ →
    ∃ t, exec .boRot s = .next t ∧ wordval t.res = rotl32 (wordval o.opa) 8

/-- BO_SUB (R126): each byte of OPA through the S-box. -/
def Obligations.BoSubCompletes : Prop :=
  ∀ (s : State) (o : Operands), s.pending = some ⟨.boSub, o⟩ →
    exec .boSub s = .next { s with
      res := ⟨sbox o.opa.b0, sbox o.opa.b1, sbox o.opa.b2, sbox o.opa.b3⟩, pending := none, doneFlag := true }

/-- The S-box is the affine map of the inverse in GF(2^8), xor 0x63, and 0x63 at 0 (R121). -/
def Obligations.SboxIsAffineOfInverse : Prop :=
  sbox 0 = 0x63 ∧ ∀ x : Byte, x ≠ 0 → ∃ y : Byte, gfMul x y = 1 ∧ sbox x = sboxAffine y ^^^ 0x63

/-- BO_RCON (R127): for `1 <= n <= 10`, RES is `[RC[n], 0, 0, 0]`, counted from 1. -/
def Obligations.BoRconCompletes : Prop :=
  ∀ (s : State) (o : Operands) (n : Nat) (c : Byte), s.pending = some ⟨.boRcon n, o⟩ → 1 ≤ n →
    ([0x01, 0x02, 0x04, 0x08, 0x10, 0x20, 0x40, 0x80, 0x1B, 0x36] : List Byte)[n - 1]? = some c →
    exec (.boRcon n) s = .next { s with res := ⟨c, 0, 0, 0⟩, pending := none, doneFlag := true }

/-- KS_INIT (R142): RK[0..3] are the key's 4-byte groups in order and KCOUNT is 4. Nothing is said of the other Words of
RK, which become UNSPECIFIED to a reader. -/
def Obligations.KsInitCompletes : Prop :=
  ∀ (s : State) (o : Operands), s.pending = some ⟨.ksInit, o⟩ → o.keyLen = 16 →
    ∃ rk : Vector AesWord 44,
      exec .ksInit s = .next { s with rk := rk, kcount := 4, pending := none, doneFlag := true } ∧
      ∀ (j : Nat) (hj : j < 4), rk[j] = ⟨o.key[4 * j], o.key[4 * j + 1], o.key[4 * j + 2], o.key[4 * j + 3]⟩

/-- KS_STEP (R143): with `i = KCOUNT.N` in 4..43, RK[i] is `RK[i-4] xor t`, where `t` is RK[i-1], and SubWord of its
RotWord xor Rcon(i/4) when 4 divides i; KCOUNT is `i + 1`; no other Word of RK changes. -/
def Obligations.KsStepCompletes : Prop :=
  ∀ (s : State) (o : Operands) (i : Nat) (h4 : 4 ≤ i) (h43 : i ≤ 43), s.pending = some ⟨.ksStep, o⟩ →
    s.kcount.toNat = i →
    exec .ksStep s = .next { s with
      rk := s.rk.set i
        (xorWord s.rk[i - 4]
          (if i % 4 = 0 then xorWord (subWord (rotWord s.rk[i - 1])) (rconWord (i / 4)) else s.rk[i - 1]))
      kcount := BitVec.ofNat 6 (i + 1), pending := none, doneFlag := true }

/-- KS_EXPAND (R144, R140, R146): KCOUNT is 44; RK[0..3] are the key's groups; every later Word is the XOR of the Word
four before with `t` as in KS_STEP. -/
def Obligations.KsExpandCompletes : Prop :=
  ∀ (s : State) (o : Operands), s.pending = some ⟨.ksExpand, o⟩ → o.keyLen = 16 →
    ∃ rk : Vector AesWord 44,
      exec .ksExpand s = .next { s with rk := rk, kcount := 44, pending := none, doneFlag := true } ∧
      (∀ (j : Nat) (hj : j < 4), rk[j] = ⟨o.key[4 * j], o.key[4 * j + 1], o.key[4 * j + 2], o.key[4 * j + 3]⟩) ∧
      (∀ (i : Nat) (h4 : 4 ≤ i) (h43 : i < 44), rk[i] = xorWord rk[i - 4]
        (if i % 4 = 0 then xorWord (subWord (rotWord rk[i - 1])) (rconWord (i / 4)) else rk[i - 1]))

/-- MD_INIT (R171, R160): H is IV, COUNT is 0, MDV is 1. -/
def Obligations.MdInitCompletes : Prop :=
  ∀ (s : State) (o : Operands), s.pending = some ⟨.mdInit, o⟩ →
    exec .mdInit s = .next { s with
      md := { s.md with h := ⟨0x67452301, 0xEFCDAB89, 0x98BADCFE, 0x10325476⟩, count := 0 }
      mdvFlag := true, pending := none, doneFlag := true }

/-- MD_LOADDIG (R172, R165): each 4-byte group of DIN is read as a little-endian accumulator word, COUNT is 0, MDV is 1;
immediately afterwards DOUT is DIN. -/
def Obligations.MdLoaddigCompletes : Prop :=
  ∀ (s : State) (o : Operands), s.pending = some ⟨.mdLoaddig, o⟩ →
    ∃ h : HashState,
      exec .mdLoaddig s = .next { s with
        md := { s.md with h := h, count := 0 }, mdvFlag := true, pending := none, doneFlag := true } ∧
      (∀ (j : Nat) (hj : j < 4), (hashWord h j).toNat =
        o.din[4 * j].toNat + o.din[4 * j + 1].toNat * 2 ^ 8 + o.din[4 * j + 2].toNat * 2 ^ 16 +
          o.din[4 * j + 3].toNat * 2 ^ 24) ∧
      ser h = o.din

/-- MD_SETCNT (R173): with MDV = 1, no partial block, and ARG a multiple of 64, COUNT is ARG. -/
def Obligations.MdSetcntCompletes : Prop :=
  ∀ (s : State) (o : Operands), s.pending = some ⟨.mdSetcnt, o⟩ → s.mdvFlag = true → s.md.count.toNat % 64 = 0 →
    o.arg.toNat % 64 = 0 →
    exec .mdSetcnt s = .next { s with md := { s.md with count := o.arg }, pending := none, doneFlag := true }

/-- MD_UPDATE (R175, R39): with MDV = 1 and `n <= 64`, MSG[0..n) is absorbed byte by byte in order, and COUNT grows by
`n` modulo 2^64. -/
def Obligations.MdUpdateCompletes : Prop :=
  ∀ (s : State) (o : Operands) (n : Nat), s.pending = some ⟨.mdUpdate n, o⟩ → s.mdvFlag = true → n ≤ 64 →
    ∃ m : MdState, exec (.mdUpdate n) s = .next { s with md := m, pending := none, doneFlag := true } ∧
      m = (o.msg.toList.take n).foldl absorb s.md ∧ m.count = s.md.count + BitVec.ofNat 64 n

/-- MD_UPDATE without a boundary and with one (R167, R175): while `COUNT mod 64 + n < 64` H does not change; otherwise H
is compressed exactly once, with the block made of the buffered bytes and the first bytes of MSG. -/
def Obligations.UpdateCompressesAtBlockBoundary : Prop :=
  ∀ (m : MdState) (xs : List Byte), xs.length ≤ 64 →
    let fill := m.count.toNat % 64
    (fill + xs.length < 64 → (absorbAll m xs).h = m.h) ∧
    (64 ≤ fill + xs.length → (absorbAll m xs).h =
      compress m.h (Vector.ofFn fun i => if i.val < fill then vget m.buf i.val else xs.getD (i.val - fill) 0))

/-- The bare compression step (R176): MD_UPDATE 64 at a block boundary compresses MSG and adds 64 to COUNT. -/
def Obligations.UpdateOfAWholeBlock : Prop :=
  ∀ (s : State) (o : Operands), s.pending = some ⟨.mdUpdate 64, o⟩ → s.mdvFlag = true → s.md.count.toNat % 64 = 0 →
    exec (.mdUpdate 64) s = .next { s with
      md := { h := compress s.md.h o.msg, count := s.md.count + 64, buf := o.msg }
      pending := none, doneFlag := true }

/-- MD_FINAL (R177): with MDV = 1, Pad(COUNT) is absorbed; afterwards COUNT has grown by the padding's length and is a
multiple of 64, and MDV stays 1. -/
def Obligations.MdFinalCompletes : Prop :=
  ∀ (s : State) (o : Operands), s.pending = some ⟨.mdFinal, o⟩ → s.mdvFlag = true →
    ∃ m : MdState, exec .mdFinal s = .next { s with md := m, pending := none, doneFlag := true } ∧
      m = (padBytes s.md.count).foldl absorb s.md ∧
      m.count = s.md.count + BitVec.ofNat 64 (padBytes s.md.count).length ∧ m.count.toNat % 64 = 0

/-- MD_PADGEN (R179, R163): PADLEN is the padding's length, PAD the padding and then zeros; no check, and no MD state is
read or written. -/
def Obligations.MdPadgenCompletes : Prop :=
  ∀ (s : State) (o : Operands), s.pending = some ⟨.mdPadgen, o⟩ →
    ∃ (l : Byte) (w : Window 128),
      exec .mdPadgen s = .next { s with padlen := l, pad := w, pending := none, doneFlag := true } ∧
      l.toNat = (padBytes o.arg).length ∧
      w.toList = padBytes o.arg ++ List.replicate (128 - (padBytes o.arg).length) 0

/-! ### The functions of the MD engine (43_md4) -/

/-- The padding (R163, R164): its length is `64 - (L mod 64)` if `(L mod 64) < 56`, else `128 - (L mod 64)`, so 9 to 64
or 65 to 72; it begins with 0x80, ends with `8 L` modulo 2^64 in eight little-endian bytes, and is 0 between. -/
def Obligations.PaddingLaw : Prop :=
  ∀ l : Word64,
    (l.toNat % 64 < 56 → (padBytes l).length = 64 - l.toNat % 64 ∧ 9 ≤ (padBytes l).length ∧
      (padBytes l).length ≤ 64) ∧
    (56 ≤ l.toNat % 64 → (padBytes l).length = 128 - l.toNat % 64 ∧ 65 ≤ (padBytes l).length ∧
      (padBytes l).length ≤ 72) ∧
    (padBytes l)[0]? = some 0x80 ∧
    (∀ k, 1 ≤ k → k + 8 < (padBytes l).length → (padBytes l)[k]? = some 0) ∧
    (∀ k, k < 8 → (padBytes l)[(padBytes l).length - 8 + k]? =
      some (BitVec.ofNat 8 (8 * l.toNat % 2 ^ 64 / 2 ^ (8 * k))))

/-- The padded length is a multiple of 64, so the counter the forging procedure presets is one too (R164, R174). -/
def Obligations.PaddedLengthIsWholeBlocks : Prop :=
  ∀ l : Word64, (l.toNat + (padBytes l).length) % 64 = 0 ∧
    (l + BitVec.ofNat 64 (padBytes l).length).toNat % 64 = 0

/-- Serialisation and deserialisation of the accumulator (R165): byte `k` of group `j` of Ser is bits `8k+7:8k` of word
`j`; Deser reads each group as a little-endian integer; the two are inverse to each other. -/
def Obligations.SerAndDeserAreInverse : Prop :=
  (∀ (h : HashState) (j k : Nat), j < 4 → k < 4 →
    vget (ser h) (4 * j + k) = BitVec.ofNat 8 ((hashWord h j).toNat / 2 ^ (8 * k))) ∧
  (∀ (d : Window 16) (j : Nat) (_ : j < 4), (hashWord (deser d) j).toNat =
    d[4 * j].toNat + d[4 * j + 1].toNat * 2 ^ 8 + d[4 * j + 2].toNat * 2 ^ 16 + d[4 * j + 3].toNat * 2 ^ 24) ∧
  (∀ h : HashState, deser (ser h) = h) ∧ ∀ d : Window 16, ser (deser d) = d

/-- Known answers: the source's key-schedule words 4 and 43, of 44 (R146), and the digests of "" and "abc" (R177). -/
def Obligations.KnownAnswers : Prop :=
  (let k : Window 16 := #v[0x2b, 0x7e, 0x15, 0x16, 0x28, 0xae, 0xd2, 0xa6, 0xab, 0xf7, 0x15, 0x88, 0x09, 0xcf, 0x4f, 0x3c]
   (expand k).length = 44 ∧ (expand k)[4]? = some ⟨0xa0, 0xfa, 0xfe, 0x17⟩ ∧
     (expand k)[43]? = some ⟨0xb6, 0x63, 0x0c, 0xa6⟩) ∧
  md4Digest [] = #v[0x31, 0xd6, 0xcf, 0xe0, 0xd1, 0x6a, 0xe9, 0x31, 0xb7, 0x3c, 0x59, 0xd7, 0xe0, 0xc0, 0x89, 0xc0] ∧
  md4Digest [0x61, 0x62, 0x63] =
    #v[0xa4, 0x48, 0x01, 0x7a, 0xaf, 0x21, 0xd8, 0x52, 0x5f, 0xc1, 0x0a, 0xe8, 0x7a, 0xa6, 0x72, 0x9d]

/-- Only the meaningful bytes of BUF count (R41, R166): two MD states that agree on H, COUNT and `BUF[0..COUNT mod 64)`
agree on them after absorbing the same bytes. -/
def Obligations.StaleBufferBytesNeverMatter : Prop :=
  ∀ (m m' : MdState) (xs : List Byte), m.h = m'.h → m.count = m'.count →
    (∀ k, k < m.count.toNat % 64 → vget m.buf k = vget m'.buf k) →
    (absorbAll m xs).h = (absorbAll m' xs).h ∧ (absorbAll m xs).count = (absorbAll m' xs).count ∧
    ∀ k, k < (absorbAll m xs).count.toNat % 64 → vget (absorbAll m xs).buf k = vget (absorbAll m' xs).buf k

/-- Genuine MD4 (R168): from every idle state, MD_INIT, any number of MD_UPDATEs of at most 64 bytes each and MD_FINAL all
complete, and DOUT is the digest that the rules define by folding Compress over the blocks of `m ‖ Pad(len(m))`, for `m`
the bytes absorbed, however they were split. -/
def Obligations.FinalDigestIsMd4 : Prop :=
  ∀ (s : State) (cs : List Chunk), s.pending = none → s.error = none → (∀ c ∈ cs, c.n ≤ 64) →
    ∃ t, ((runToCompletion .mdInit s).bind (absorbChunks cs)).bind (runToCompletion .mdFinal) = some t ∧
      ser t.md.h = md4Digest (cs.flatMap Chunk.bytes)

/-- Length extension (R169): with `Hp` the accumulator after `P ‖ Pad(len(P))`, resuming at `Hp` with COUNT the length of
`P ‖ Pad(len(P))` and any buffer, absorbing `X` and finalising gives `MD4(P ‖ Pad(len(P)) ‖ X)`. -/
def Obligations.LengthExtension : Prop :=
  ∀ (P X : List Byte) (buf buf' : Window 64),
    let hp := (absorbAll ⟨md4IV, 0, buf⟩ (padded P)).h
    let m := absorbAll ⟨hp, BitVec.ofNat 64 (padded P).length, buf'⟩ X
    ser (absorbAll m (padBytes m.count)).h = md4Digest (padded P ++ X)

/-- The forging procedure (R185, R187), for `K` the secret followed by the observed message: from every idle state with
MD4(K) in DIN and the length of `K ‖ Pad(len(K))` in ARG, MD_LOADDIG, MD_SETCNT, the MD_UPDATEs of a suffix and MD_FINAL all
complete, and DOUT is the digest of `K ‖ Pad(len(K)) ‖ suffix`. -/
def Obligations.ForgedDigestIsGenuine : Prop :=
  ∀ (s : State) (K : List Byte) (cs : List Chunk), s.pending = none → s.error = none → (∀ c ∈ cs, c.n ≤ 64) →
    s.operands.din = md4Digest K → s.operands.arg = BitVec.ofNat 64 (padded K).length →
    ∃ t, ((runAll [.mdLoaddig, .mdSetcnt] s).bind (absorbChunks cs)).bind (runToCompletion .mdFinal) = some t ∧
      ser t.md.h = md4Digest (padded K ++ cs.flatMap Chunk.bytes)

/-- KS_EXPAND against KS_INIT and 40 times KS_STEP (R145): from every idle state with KEY_LEN.LEN = 16 both run to
completion and leave the same RK and KCOUNT. -/
def Obligations.ExpandIsInitAndFortySteps : Prop :=
  ∀ s : State, s.pending = none → s.error = none → s.operands.keyLen = 16 →
    ∃ t u, runAll [.ksExpand] s = some t ∧ runAll (.ksInit :: List.replicate 40 .ksStep) s = some u ∧
      t.rk = u.rk ∧ t.kcount = 44 ∧ u.kcount = 44

/-! ### Host accesses (20_memory, 10_state) -/

/-- The access checks that refuse with BAD_ACCESS (R66): illegal size, misaligned 4-byte access, unmapped offset; for a
write also a read-only target and a 1-byte access to CMD. A refused read returns 0, a refused write changes nothing else;
the first error since ERR was cleared is kept. -/
def Obligations.BadAccessesAreRefused : Prop :=
  ∀ (s : State) (off : Offset) (n : Nat) (v : Word32) (rest : List Move),
    ((n ≠ 1 ∧ n ≠ 4) ∨ (n = 4 ∧ off.toNat % 4 ≠ 0) ∨ Unmapped off →
      s.Presents (.read off n) rest →
      step s = .next { s with
        schedule := rest, error := some (s.error.getD .badAccess), replies := ⟨off, n, 0⟩ :: s.replies }) ∧
    ((n ≠ 1 ∧ n ≠ 4) ∨ (n = 4 ∧ off.toNat % 4 ≠ 0) ∨ Unmapped off ∨ ReadOnly off ∨ (off.toNat < 4 ∧ n = 1) →
      s.Presents (.write off n v) rest →
      step s = .next { s with schedule := rest, error := some (s.error.getD .badAccess) })

/-- Writes to read-only registers and windows are refused with BAD_ACCESS and change nothing (R67). -/
def Obligations.ReadOnlyWritesAreRefused : Prop :=
  ∀ (s : State) (off : Offset) (n : Nat) (v : Word32) (rest : List Move), ReadOnly off →
    s.Presents (.write off n v) rest →
    step s = .next { s with schedule := rest, error := some (s.error.getD .badAccess) }

/-- Guarded registers (R70): while BUSY = 1 a legal write to one is refused with BUSY_WRITE and changes nothing, a CMD
write among them; writes to STATUS and CTRL, and legal reads of any mapped offset, are carried out: they record no error. -/
def Obligations.GuardedWritesWhileBusy : Prop :=
  ∀ (s : State) (off : Offset) (n : Nat) (v : Word32) (rest : List Move), s.pending ≠ none → LegalSize off n →
    (GuardedStorage off ∨ (off = 0x000 ∧ n = 4) →
      s.Presents (.write off n v) rest →
      step s = .next { s with schedule := rest, error := some (s.error.getD .busyWrite) }) ∧
    (StatusOrCtrl off → s.Presents (.write off n v) rest →
      ∃ d e ie, step s = .next { s with schedule := rest, doneFlag := d, error := e, ieFlag := ie } ∧
        (e = none ∨ e = s.error)) ∧
    (¬ Unmapped off → s.Presents (.read off n) rest →
      ∃ (x : Word32) (d : Nat),
        step s = .next { s with schedule := rest, replies := ⟨off, n, x⟩ :: s.replies, draws := d })

/-- Reads while BUSY = 1 (R71): output state returns some value, the state of the block being unaffected; guarded
registers, CTRL and STATUS return their current values, which for CMD is 0 (R68). -/
def Obligations.ReadsWhileBusy : Prop :=
  ∀ (s : State) (off : Offset) (n : Nat) (rest : List Move), s.pending ≠ none → LegalSize off n →
    s.Presents (.read off n) rest →
    (ReadOnly off → ∃ (x : Word32) (d : Nat),
      step s = .next { s with schedule := rest, replies := ⟨off, n, x⟩ :: s.replies, draws := d }) ∧
    (off.toNat < 4 ∨ GuardedStorage off ∨ StatusOrCtrl off → ∃ x : Word32, x.toNat = s.valueAt off n ∧
      step s = .next { s with schedule := rest, replies := ⟨off, n, x⟩ :: s.replies })

/-- Reads while BUSY = 0 of a mapped offset return the bytes there, big-endian, and have no side effect (R62, R63, R69);
of RK this holds for the Words below KCOUNT.N (R38). Where MDV = 0, R35 leaves the value of
DOUT UNSPECIFIED, and that it reads as the serialisation of the stored H is the model's choice, log entry 7. -/
def Obligations.ReadsWhileIdle : Prop :=
  ∀ (s : State) (off : Offset) (n : Nat) (rest : List Move), s.pending = none → LegalSize off n →
    ¬ Unmapped off → (0x200 ≤ off.toNat → (off.toNat - 0x200) / 4 < s.kcount.toNat) →
    s.Presents (.read off n) rest →
    ∃ x : Word32, x.toNat = s.valueAt off n ∧
      step s = .next { s with schedule := rest, replies := ⟨off, n, x⟩ :: s.replies }

/-- Reads while BUSY = 0 of a round-key Word that is not computed, before a schedule is started (KCOUNT = 0) and during one
(R38): they return some value, record no error and leave the block as it is. -/
def Obligations.UnfinishedRoundKeysReadAnyValue : Prop :=
  ∀ (s : State) (off : Offset) (n : Nat) (rest : List Move), s.pending = none → LegalSize off n →
    0x200 ≤ off.toNat → off.toNat ≤ 0x2AF → s.kcount.toNat ≤ (off.toNat - 0x200) / 4 →
    s.Presents (.read off n) rest →
    ∃ (x : Word32) (d : Nat),
      step s = .next { s with schedule := rest, replies := ⟨off, n, x⟩ :: s.replies, draws := d }

/-- The error codes of R200, transcribed again. -/
def Sys2Proof.errorCodeTable : List (ErrorCode × Nat) :=
  [(.illegalCmd, 0x01), (.invalidKeySize, 0x02), (.ksSequence, 0x03), (.badRound, 0x04), (.badLength, 0x05),
   (.badCount, 0x06), (.busyWrite, 0x07), (.badAccess, 0x08), (.mdSequence, 0x09)]

/-- What the registers read as, where the read is specified (R25 to R29, R31, R39, R68, R200): every field in its bits,
reserved bits 0, CMD 0; ERRCODE, bits 15:8 of STATUS, is 0x00 when no error is recorded and otherwise the error's code, one
of nine. -/
def Obligations.RegistersReadTheirFields : Prop :=
  ∀ s : State,
    s.valueAt 0x000 4 = 0 ∧
    s.valueAt 0x004 4 =
      (if s.pending ≠ none then 1 else 0) + (if s.doneFlag then 2 else 0) + (if s.error ≠ none then 4 else 0) +
      (if s.kcount.toNat = 44 then 8 else 0) + (if s.mdvFlag then 16 else 0) + 256 * s.errCode.toNat ∧
    s.valueAt 0x008 4 = (if s.ieFlag then 1 else 0) ∧
    s.valueAt 0x00C 4 = s.operands.keyLen.toNat ∧
    s.valueAt 0x010 4 = s.kcount.toNat ∧
    s.valueAt 0x014 4 = s.padlen.toNat ∧
    s.valueAt 0x018 4 * 2 ^ 32 + s.valueAt 0x01C 4 = s.md.count.toNat ∧
    s.valueAt 0x020 4 * 2 ^ 32 + s.valueAt 0x024 4 = s.operands.arg.toNat ∧
    (s.error = none → s.valueAt 0x004 4 / 2 ^ 8 = 0x00) ∧
    (∀ e, s.error = some e → ∃ c, (e, c) ∈ errorCodeTable ∧ s.valueAt 0x004 4 / 2 ^ 8 = c)

/-- What the windows read as (R32 to R38): each byte at its offset, RK as 44 Words, DOUT the little-endian serialisation
of H. -/
def Obligations.WindowsReadTheirBytes : Prop :=
  ∀ s : State,
    (∀ k, k < 4 → s.byteAt (BitVec.ofNat 10 (0x030 + k)) = some (wordByte s.operands.opa k) ∧
      s.byteAt (BitVec.ofNat 10 (0x034 + k)) = some (wordByte s.operands.opb k) ∧
      s.byteAt (BitVec.ofNat 10 (0x038 + k)) = some (wordByte s.res k)) ∧
    (∀ (k : Nat) (h : k < 16), s.byteAt (BitVec.ofNat 10 (0x040 + k)) = some s.operands.key[k] ∧
      s.byteAt (BitVec.ofNat 10 (0x050 + k)) = some s.operands.din[k]) ∧
    (∀ j k, j < 4 → k < 4 → s.byteAt (BitVec.ofNat 10 (0x060 + 4 * j + k)) =
      some (BitVec.ofNat 8 ((hashWord s.md.h j).toNat / 2 ^ (8 * k)))) ∧
    (∀ (k : Nat) (h : k < 64), s.byteAt (BitVec.ofNat 10 (0x080 + k)) = some s.operands.msg[k]) ∧
    (∀ (k : Nat) (h : k < 128), s.byteAt (BitVec.ofNat 10 (0x100 + k)) = some s.pad[k]) ∧
    (∀ (i k : Nat) (h : i < 44), k < 4 → s.byteAt (BitVec.ofNat 10 (0x200 + 4 * i + k)) = some (wordByte s.rk[i] k))

/-- A legal write to ARG, OPA, OPB, KEY, DIN or MSG while BUSY = 0 (R63, R65, R69, R75): it stores its bytes, the first
in bits 31:24; every byte outside them reads as before; nothing but the operand registers changes. -/
def Obligations.OperandWritesStoreTheirBytes : Prop :=
  ∀ (s : State) (off : Offset) (n : Nat) (v : Word32) (rest : List Move), s.pending = none → LegalSize off n →
    OperandStorage off → s.Presents (.write off n v) rest →
    ∃ t, step s = .next t ∧ t = { s with schedule := rest, operands := t.operands } ∧
      (n = 1 → t.byteAt off = some (BitVec.ofNat 8 v.toNat)) ∧
      (n = 4 → ∀ k, k < 4 →
        t.byteAt (off + BitVec.ofNat 10 k) = some (BitVec.ofNat 8 (v.toNat / 2 ^ (24 - 8 * k)))) ∧
      ∀ a : Offset, a.toNat < off.toNat ∨ off.toNat + n ≤ a.toNat → t.byteAt a = s.byteAt a

/-- Writes to STATUS and CTRL, at any time, and to KEY_LEN while BUSY = 0 (R25, R26, R27, R65, R68): a 1 in bit 1 of
STATUS clears DONE and a 1 in bit 2 clears ERR and ERRCODE; bit 0 of CTRL is IE; bits 7:0 of KEY_LEN are LEN; every other
bit, and a 1-byte write to another lane, is ignored without error. -/
def Obligations.ControlRegisterWrites : Prop :=
  ∀ (s : State) (off : Offset) (n : Nat) (v : Word32) (rest : List Move), LegalSize off n →
    s.Presents (.write off n v) rest →
    (off = 0x007 ∨ (off = 0x004 ∧ n = 4) → step s = .next { s with
      schedule := rest
      doneFlag := s.doneFlag && !v.getLsbD 1
      error := if v.getLsbD 2 then none else s.error }) ∧
    (off = 0x00B ∨ (off = 0x008 ∧ n = 4) → step s = .next { s with schedule := rest, ieFlag := v.getLsbD 0 }) ∧
    (s.pending = none → off = 0x00F ∨ (off = 0x00C ∧ n = 4) → step s = .next { s with
      schedule := rest, operands := { s.operands with keyLen := BitVec.ofNat 8 v.toNat } }) ∧
    (n = 1 → (off.toNat ∈ [0x004, 0x005, 0x006, 0x008, 0x009, 0x00A] ∨
        (s.pending = none ∧ off.toNat ∈ [0x00C, 0x00D, 0x00E])) →
      step s = .next { s with schedule := rest })

/-- Return from an error (R206): a write of 1 to STATUS.ERR sets ERR = 0 and ERRCODE = 0x00 in the same access; nothing
is restored, and every state but the status bits written stays. -/
def Obligations.ClearingAnError : Prop :=
  ∀ (s : State) (v : Word32) (rest : List Move), v.getLsbD 2 = true →
    (s.Presents (.write 0x004 4 v) rest ∨ s.Presents (.write 0x007 1 v) rest) →
    ∃ t, step s = .next t ∧ t.errFlag = false ∧ t.errCode = 0x00 ∧
      t = { s with schedule := rest, error := none, doneFlag := t.doneFlag } ∧
      (v.getLsbD 1 = false → t.doneFlag = s.doneFlag)

/-! ### Reset (70_reset) -/

/-- Asserting reset, and releasing it (R240, R241): every piece of state takes its reset value, a pending command is
discarded without an error and without DONE, and the UNSPECIFIED storage holds some contents `c`. -/
def Obligations.ResetTakesTheResetValues : Prop :=
  ∀ (s : State) (asserted : Bool) (rest : List Move), s.schedule = .resetInput asserted :: rest →
    (asserted = true ∨ s.inReset = true) →
    ∃ t c, step s = .next t ∧
      t.valueAt 0x004 4 = 0 ∧ t.valueAt 0x008 4 = 0 ∧ t.valueAt 0x00C 4 = 0 ∧ t.valueAt 0x010 4 = 0 ∧
      t.valueAt 0x014 4 = 0 ∧ t.md.count = 0 ∧ t.pending = none ∧ t.irq = false ∧ t.inReset = asserted ∧
      t = { State.resetWith c with
        inReset := asserted, replies := s.replies, draws := t.draws, schedule := rest }

/-- `State.reset` and every reset state read as R44 says: the registers that have a reset value are 0, IRQ is 0 and
PENDING is empty. -/
def Obligations.ResetStateReadsAsTheTableSays : Prop :=
  ∀ c : ResetContents,
    (State.resetWith c).valueAt 0x004 4 = 0 ∧ (State.resetWith c).valueAt 0x008 4 = 0 ∧
    (State.resetWith c).valueAt 0x00C 4 = 0 ∧ (State.resetWith c).valueAt 0x010 4 = 0 ∧
    (State.resetWith c).valueAt 0x014 4 = 0 ∧ (State.resetWith c).valueAt 0x018 4 = 0 ∧
    (State.resetWith c).valueAt 0x01C 4 = 0 ∧ (State.resetWith c).irq = false ∧ (State.resetWith c).pending = none

/-- A host access while reset is asserted has no step (R242, 93 U7): the model's step is the fault `hostAccessInReset` (log
entry 11). -/
def Obligations.HostAccessInResetStops : Prop :=
  ∀ (s : State) (a : Access) (rest : List Move), s.schedule = .host a :: rest → s.inReset = true →
    step s = .fault .hostAccessInReset

/-! ### Rules of the whole machine -/

/-- The interrupt output (R220): IRQ is 1 exactly when IE is 1 and DONE or ERR is. -/
def Obligations.InterruptLevel : Prop :=
  ∀ s : State, s.irq = true ↔ s.ieFlag = true ∧ (s.doneFlag = true ∨ s.error ≠ none)

/-- The legal states hold at reset, whatever the UNSPECIFIED storage holds (R28, R29, R44, R77). -/
def Obligations.InvariantHoldsAtReset : Prop :=
  State.reset.Inv ∧ ∀ c : ResetContents, (State.resetWith c).Inv

/-- Every step keeps the legal states (R28, R29, R77, R146, R201, R243). -/
def Obligations.EveryStepKeepsTheInvariant : Prop :=
  ∀ s t : State, s.Inv → step s = .next t → t.Inv

/-- In a legal state the machine never stops while the host keeps out of reset: an accepted command always completes
(R204). -/
def Obligations.LegalStatesNeverStop : Prop :=
  ∀ s : State, s.Inv → s.HostKeepsOut → ∃ t, step s = .next t ∧ t.Inv

/-- A host access while a command is pending leaves that command to complete normally (R203): PENDING, the operands and
all that commands produce stay as they are. -/
def Obligations.HostAccessesLeaveAPendingCommand : Prop :=
  ∀ (s : State) (a : Access) (rest : List Move), s.Presents a rest → s.pending ≠ none →
    ∃ t, step s = .next t ∧ t.pending = s.pending ∧ t.operands = s.operands ∧ t.res = s.res ∧ t.rk = s.rk ∧
      t.kcount = s.kcount ∧ t.padlen = s.padlen ∧ t.pad = s.pad ∧ t.md = s.md ∧ t.mdvFlag = s.mdvFlag

/-- Who writes what (R25, R28, R32, R37 to R41): outside reset, a step that changes an output of the engines is the
completion of a pending command that names it, and no step clears MDV. -/
def Obligations.OutputsAreWrittenByTheirCommands : Prop :=
  ∀ s t : State, step s = .next t → (∀ b rest, s.schedule ≠ .resetInput b :: rest) →
    (s.mdvFlag = true → t.mdvFlag = true) ∧
    ((t.res, t.rk, t.kcount, t.padlen, t.pad, t.md, t.mdvFlag) ≠
        (s.res, s.rk, s.kcount, s.padlen, s.pad, s.md, s.mdvFlag) →
      ∃ p, s.pending = some p ∧ t.pending = none ∧ t.doneFlag = true ∧
        (t.res ≠ s.res → p.instr ∈ [.boXor, .boRot, .boSub] ∨ ∃ n, p.instr = .boRcon n) ∧
        (t.rk ≠ s.rk ∨ t.kcount ≠ s.kcount → p.instr ∈ [.ksInit, .ksStep, .ksExpand]) ∧
        (t.padlen ≠ s.padlen ∨ t.pad ≠ s.pad → p.instr = .mdPadgen) ∧
        (t.md.h ≠ s.md.h → p.instr ∈ [.mdInit, .mdLoaddig, .mdFinal] ∨ ∃ n, p.instr = .mdUpdate n) ∧
        (t.md.count ≠ s.md.count →
          p.instr ∈ [.mdInit, .mdLoaddig, .mdSetcnt, .mdFinal] ∨ ∃ n, p.instr = .mdUpdate n) ∧
        (t.md.buf ≠ s.md.buf → p.instr = .mdFinal ∨ ∃ n, p.instr = .mdUpdate n) ∧
        (t.mdvFlag ≠ s.mdvFlag → p.instr = .mdInit ∨ p.instr = .mdLoaddig))

/-- The first error is kept (R203, R207): while ERR = 1 no step but a host write of 1 to STATUS.ERR or a reset changes
ERR or ERRCODE. -/
def Obligations.FirstErrorIsKept : Prop :=
  ∀ (s t : State) (e : ErrorCode), step s = .next t → s.error = some e →
    t.error = some e ∨
    (t.error = none ∧ ∃ off n v rest, s.schedule = .host (.write off n v) :: rest ∧ v.getLsbD 2 = true ∧
      (off = 0x007 ∨ (off = 0x004 ∧ n = 4))) ∨
    (∃ b rest, s.schedule = .resetInput b :: rest)

/-- BUSY ends only with the completion or a reset (R76, R250): a step from a state with a command pending leaves it
pending, or completes it with DONE 1, or is a reset. -/
def Obligations.BusyEndsByCompletionOrReset : Prop :=
  ∀ (s t : State) (p : Pending), step s = .next t → s.pending = some p →
    t.pending = some p ∨ (t.pending = none ∧ t.doneFlag = true ∧ ∃ rest, s.EngineTurn rest) ∨
    (∃ b rest, s.schedule = .resetInput b :: rest)

/-- A command is accepted only by a 4-byte host write of CMD, never completed in that step (R79, R252). -/
def Obligations.AcceptanceIsACmdWrite : Prop :=
  ∀ (s t : State) (p : Pending), step s = .next t → s.pending = none → t.pending = some p →
    t.doneFlag = false ∧ p.operands = s.operands ∧
    ∃ w rest, s.Presents (.write 0x000 4 w) rest ∧ decodeWord w = .ok p.instr
end

