-- ==== Sys2Proof/Laws/State.lean ====
section
/-! SUPPORT. One lemma per field per named update of the state, so that no proof unfolds an update. -/

namespace Sys2Proof.Machine

/-- The state a move acts on: `s` with its next move taken from the schedule. -/
def State.popMove (s : State) : State := { s with schedule := s.schedule.tail }

variable (s : State)


@[simp] theorem State.clearError_operands : (s.clearError).operands = s.operands := rfl
@[simp] theorem State.clearError_ieFlag : (s.clearError).ieFlag = s.ieFlag := rfl
@[simp] theorem State.clearError_doneFlag : (s.clearError).doneFlag = s.doneFlag := rfl
@[simp] theorem State.clearError_error : (s.clearError).error = none := rfl
@[simp] theorem State.clearError_mdvFlag : (s.clearError).mdvFlag = s.mdvFlag := rfl
@[simp] theorem State.clearError_kcount : (s.clearError).kcount = s.kcount := rfl
@[simp] theorem State.clearError_rk : (s.clearError).rk = s.rk := rfl
@[simp] theorem State.clearError_res : (s.clearError).res = s.res := rfl
@[simp] theorem State.clearError_padlen : (s.clearError).padlen = s.padlen := rfl
@[simp] theorem State.clearError_pad : (s.clearError).pad = s.pad := rfl
@[simp] theorem State.clearError_md : (s.clearError).md = s.md := rfl
@[simp] theorem State.clearError_pending : (s.clearError).pending = s.pending := rfl
@[simp] theorem State.clearError_inReset : (s.clearError).inReset = s.inReset := rfl
@[simp] theorem State.clearError_replies : (s.clearError).replies = s.replies := rfl
@[simp] theorem State.clearError_draws : (s.clearError).draws = s.draws := rfl
@[simp] theorem State.clearError_schedule : (s.clearError).schedule = s.schedule := rfl

@[simp] theorem State.clearDone_operands : (s.clearDone).operands = s.operands := rfl
@[simp] theorem State.clearDone_ieFlag : (s.clearDone).ieFlag = s.ieFlag := rfl
@[simp] theorem State.clearDone_doneFlag : (s.clearDone).doneFlag = false := rfl
@[simp] theorem State.clearDone_error : (s.clearDone).error = s.error := rfl
@[simp] theorem State.clearDone_mdvFlag : (s.clearDone).mdvFlag = s.mdvFlag := rfl
@[simp] theorem State.clearDone_kcount : (s.clearDone).kcount = s.kcount := rfl
@[simp] theorem State.clearDone_rk : (s.clearDone).rk = s.rk := rfl
@[simp] theorem State.clearDone_res : (s.clearDone).res = s.res := rfl
@[simp] theorem State.clearDone_padlen : (s.clearDone).padlen = s.padlen := rfl
@[simp] theorem State.clearDone_pad : (s.clearDone).pad = s.pad := rfl
@[simp] theorem State.clearDone_md : (s.clearDone).md = s.md := rfl
@[simp] theorem State.clearDone_pending : (s.clearDone).pending = s.pending := rfl
@[simp] theorem State.clearDone_inReset : (s.clearDone).inReset = s.inReset := rfl
@[simp] theorem State.clearDone_replies : (s.clearDone).replies = s.replies := rfl
@[simp] theorem State.clearDone_draws : (s.clearDone).draws = s.draws := rfl
@[simp] theorem State.clearDone_schedule : (s.clearDone).schedule = s.schedule := rfl

@[simp] theorem State.accept_operands (i : Instr) : (s.accept i).operands = s.operands := rfl
@[simp] theorem State.accept_ieFlag (i : Instr) : (s.accept i).ieFlag = s.ieFlag := rfl
@[simp] theorem State.accept_doneFlag (i : Instr) : (s.accept i).doneFlag = s.doneFlag := rfl
@[simp] theorem State.accept_error (i : Instr) : (s.accept i).error = s.error := rfl
@[simp] theorem State.accept_mdvFlag (i : Instr) : (s.accept i).mdvFlag = s.mdvFlag := rfl
@[simp] theorem State.accept_kcount (i : Instr) : (s.accept i).kcount = s.kcount := rfl
@[simp] theorem State.accept_rk (i : Instr) : (s.accept i).rk = s.rk := rfl
@[simp] theorem State.accept_res (i : Instr) : (s.accept i).res = s.res := rfl
@[simp] theorem State.accept_padlen (i : Instr) : (s.accept i).padlen = s.padlen := rfl
@[simp] theorem State.accept_pad (i : Instr) : (s.accept i).pad = s.pad := rfl
@[simp] theorem State.accept_md (i : Instr) : (s.accept i).md = s.md := rfl
@[simp] theorem State.accept_pending (i : Instr) : (s.accept i).pending = some ⟨i, s.operands⟩ := rfl
@[simp] theorem State.accept_inReset (i : Instr) : (s.accept i).inReset = s.inReset := rfl
@[simp] theorem State.accept_replies (i : Instr) : (s.accept i).replies = s.replies := rfl
@[simp] theorem State.accept_draws (i : Instr) : (s.accept i).draws = s.draws := rfl
@[simp] theorem State.accept_schedule (i : Instr) : (s.accept i).schedule = s.schedule := rfl

@[simp] theorem State.complete_operands : (s.complete).operands = s.operands := rfl
@[simp] theorem State.complete_ieFlag : (s.complete).ieFlag = s.ieFlag := rfl
@[simp] theorem State.complete_doneFlag : (s.complete).doneFlag = true := rfl
@[simp] theorem State.complete_error : (s.complete).error = s.error := rfl
@[simp] theorem State.complete_mdvFlag : (s.complete).mdvFlag = s.mdvFlag := rfl
@[simp] theorem State.complete_kcount : (s.complete).kcount = s.kcount := rfl
@[simp] theorem State.complete_rk : (s.complete).rk = s.rk := rfl
@[simp] theorem State.complete_res : (s.complete).res = s.res := rfl
@[simp] theorem State.complete_padlen : (s.complete).padlen = s.padlen := rfl
@[simp] theorem State.complete_pad : (s.complete).pad = s.pad := rfl
@[simp] theorem State.complete_md : (s.complete).md = s.md := rfl
@[simp] theorem State.complete_pending : (s.complete).pending = none := rfl
@[simp] theorem State.complete_inReset : (s.complete).inReset = s.inReset := rfl
@[simp] theorem State.complete_replies : (s.complete).replies = s.replies := rfl
@[simp] theorem State.complete_draws : (s.complete).draws = s.draws := rfl
@[simp] theorem State.complete_schedule : (s.complete).schedule = s.schedule := rfl

@[simp] theorem State.reply_operands (o : Offset) (n : Nat) (v : Word32) : (s.reply o n v).operands = s.operands := rfl
@[simp] theorem State.reply_ieFlag (o : Offset) (n : Nat) (v : Word32) : (s.reply o n v).ieFlag = s.ieFlag := rfl
@[simp] theorem State.reply_doneFlag (o : Offset) (n : Nat) (v : Word32) : (s.reply o n v).doneFlag = s.doneFlag := rfl
@[simp] theorem State.reply_error (o : Offset) (n : Nat) (v : Word32) : (s.reply o n v).error = s.error := rfl
@[simp] theorem State.reply_mdvFlag (o : Offset) (n : Nat) (v : Word32) : (s.reply o n v).mdvFlag = s.mdvFlag := rfl
@[simp] theorem State.reply_kcount (o : Offset) (n : Nat) (v : Word32) : (s.reply o n v).kcount = s.kcount := rfl
@[simp] theorem State.reply_rk (o : Offset) (n : Nat) (v : Word32) : (s.reply o n v).rk = s.rk := rfl
@[simp] theorem State.reply_res (o : Offset) (n : Nat) (v : Word32) : (s.reply o n v).res = s.res := rfl
@[simp] theorem State.reply_padlen (o : Offset) (n : Nat) (v : Word32) : (s.reply o n v).padlen = s.padlen := rfl
@[simp] theorem State.reply_pad (o : Offset) (n : Nat) (v : Word32) : (s.reply o n v).pad = s.pad := rfl
@[simp] theorem State.reply_md (o : Offset) (n : Nat) (v : Word32) : (s.reply o n v).md = s.md := rfl
@[simp] theorem State.reply_pending (o : Offset) (n : Nat) (v : Word32) : (s.reply o n v).pending = s.pending := rfl
@[simp] theorem State.reply_inReset (o : Offset) (n : Nat) (v : Word32) : (s.reply o n v).inReset = s.inReset := rfl
@[simp] theorem State.reply_replies (o : Offset) (n : Nat) (v : Word32) : (s.reply o n v).replies = ⟨o, n, v⟩ :: s.replies := rfl
@[simp] theorem State.reply_draws (o : Offset) (n : Nat) (v : Word32) : (s.reply o n v).draws = s.draws := rfl
@[simp] theorem State.reply_schedule (o : Offset) (n : Nat) (v : Word32) : (s.reply o n v).schedule = s.schedule := rfl

@[simp] theorem State.draw_operands : (s.draw).operands = s.operands := rfl
@[simp] theorem State.draw_ieFlag : (s.draw).ieFlag = s.ieFlag := rfl
@[simp] theorem State.draw_doneFlag : (s.draw).doneFlag = s.doneFlag := rfl
@[simp] theorem State.draw_error : (s.draw).error = s.error := rfl
@[simp] theorem State.draw_mdvFlag : (s.draw).mdvFlag = s.mdvFlag := rfl
@[simp] theorem State.draw_kcount : (s.draw).kcount = s.kcount := rfl
@[simp] theorem State.draw_rk : (s.draw).rk = s.rk := rfl
@[simp] theorem State.draw_res : (s.draw).res = s.res := rfl
@[simp] theorem State.draw_padlen : (s.draw).padlen = s.padlen := rfl
@[simp] theorem State.draw_pad : (s.draw).pad = s.pad := rfl
@[simp] theorem State.draw_md : (s.draw).md = s.md := rfl
@[simp] theorem State.draw_pending : (s.draw).pending = s.pending := rfl
@[simp] theorem State.draw_inReset : (s.draw).inReset = s.inReset := rfl
@[simp] theorem State.draw_replies : (s.draw).replies = s.replies := rfl
@[simp] theorem State.draw_draws : (s.draw).draws = s.draws + 1 := rfl
@[simp] theorem State.draw_schedule : (s.draw).schedule = s.schedule := rfl

@[simp] theorem State.setRes_operands (w : AesWord) : (s.setRes w).operands = s.operands := rfl
@[simp] theorem State.setRes_ieFlag (w : AesWord) : (s.setRes w).ieFlag = s.ieFlag := rfl
@[simp] theorem State.setRes_doneFlag (w : AesWord) : (s.setRes w).doneFlag = s.doneFlag := rfl
@[simp] theorem State.setRes_error (w : AesWord) : (s.setRes w).error = s.error := rfl
@[simp] theorem State.setRes_mdvFlag (w : AesWord) : (s.setRes w).mdvFlag = s.mdvFlag := rfl
@[simp] theorem State.setRes_kcount (w : AesWord) : (s.setRes w).kcount = s.kcount := rfl
@[simp] theorem State.setRes_rk (w : AesWord) : (s.setRes w).rk = s.rk := rfl
@[simp] theorem State.setRes_res (w : AesWord) : (s.setRes w).res = w := rfl
@[simp] theorem State.setRes_padlen (w : AesWord) : (s.setRes w).padlen = s.padlen := rfl
@[simp] theorem State.setRes_pad (w : AesWord) : (s.setRes w).pad = s.pad := rfl
@[simp] theorem State.setRes_md (w : AesWord) : (s.setRes w).md = s.md := rfl
@[simp] theorem State.setRes_pending (w : AesWord) : (s.setRes w).pending = s.pending := rfl
@[simp] theorem State.setRes_inReset (w : AesWord) : (s.setRes w).inReset = s.inReset := rfl
@[simp] theorem State.setRes_replies (w : AesWord) : (s.setRes w).replies = s.replies := rfl
@[simp] theorem State.setRes_draws (w : AesWord) : (s.setRes w).draws = s.draws := rfl
@[simp] theorem State.setRes_schedule (w : AesWord) : (s.setRes w).schedule = s.schedule := rfl

@[simp] theorem State.setSchedule_operands (k : Vector AesWord 44) (n : BitVec 6) : (s.setSchedule k n).operands = s.operands := rfl
@[simp] theorem State.setSchedule_ieFlag (k : Vector AesWord 44) (n : BitVec 6) : (s.setSchedule k n).ieFlag = s.ieFlag := rfl
@[simp] theorem State.setSchedule_doneFlag (k : Vector AesWord 44) (n : BitVec 6) : (s.setSchedule k n).doneFlag = s.doneFlag := rfl
@[simp] theorem State.setSchedule_error (k : Vector AesWord 44) (n : BitVec 6) : (s.setSchedule k n).error = s.error := rfl
@[simp] theorem State.setSchedule_mdvFlag (k : Vector AesWord 44) (n : BitVec 6) : (s.setSchedule k n).mdvFlag = s.mdvFlag := rfl
@[simp] theorem State.setSchedule_kcount (k : Vector AesWord 44) (n : BitVec 6) : (s.setSchedule k n).kcount = n := rfl
@[simp] theorem State.setSchedule_rk (k : Vector AesWord 44) (n : BitVec 6) : (s.setSchedule k n).rk = k := rfl
@[simp] theorem State.setSchedule_res (k : Vector AesWord 44) (n : BitVec 6) : (s.setSchedule k n).res = s.res := rfl
@[simp] theorem State.setSchedule_padlen (k : Vector AesWord 44) (n : BitVec 6) : (s.setSchedule k n).padlen = s.padlen := rfl
@[simp] theorem State.setSchedule_pad (k : Vector AesWord 44) (n : BitVec 6) : (s.setSchedule k n).pad = s.pad := rfl
@[simp] theorem State.setSchedule_md (k : Vector AesWord 44) (n : BitVec 6) : (s.setSchedule k n).md = s.md := rfl
@[simp] theorem State.setSchedule_pending (k : Vector AesWord 44) (n : BitVec 6) : (s.setSchedule k n).pending = s.pending := rfl
@[simp] theorem State.setSchedule_inReset (k : Vector AesWord 44) (n : BitVec 6) : (s.setSchedule k n).inReset = s.inReset := rfl
@[simp] theorem State.setSchedule_replies (k : Vector AesWord 44) (n : BitVec 6) : (s.setSchedule k n).replies = s.replies := rfl
@[simp] theorem State.setSchedule_draws (k : Vector AesWord 44) (n : BitVec 6) : (s.setSchedule k n).draws = s.draws := rfl
@[simp] theorem State.setSchedule_schedule (k : Vector AesWord 44) (n : BitVec 6) : (s.setSchedule k n).schedule = s.schedule := rfl

@[simp] theorem State.setMd_operands (m : MdState) : (s.setMd m).operands = s.operands := rfl
@[simp] theorem State.setMd_ieFlag (m : MdState) : (s.setMd m).ieFlag = s.ieFlag := rfl
@[simp] theorem State.setMd_doneFlag (m : MdState) : (s.setMd m).doneFlag = s.doneFlag := rfl
@[simp] theorem State.setMd_error (m : MdState) : (s.setMd m).error = s.error := rfl
@[simp] theorem State.setMd_mdvFlag (m : MdState) : (s.setMd m).mdvFlag = s.mdvFlag := rfl
@[simp] theorem State.setMd_kcount (m : MdState) : (s.setMd m).kcount = s.kcount := rfl
@[simp] theorem State.setMd_rk (m : MdState) : (s.setMd m).rk = s.rk := rfl
@[simp] theorem State.setMd_res (m : MdState) : (s.setMd m).res = s.res := rfl
@[simp] theorem State.setMd_padlen (m : MdState) : (s.setMd m).padlen = s.padlen := rfl
@[simp] theorem State.setMd_pad (m : MdState) : (s.setMd m).pad = s.pad := rfl
@[simp] theorem State.setMd_md (m : MdState) : (s.setMd m).md = m := rfl
@[simp] theorem State.setMd_pending (m : MdState) : (s.setMd m).pending = s.pending := rfl
@[simp] theorem State.setMd_inReset (m : MdState) : (s.setMd m).inReset = s.inReset := rfl
@[simp] theorem State.setMd_replies (m : MdState) : (s.setMd m).replies = s.replies := rfl
@[simp] theorem State.setMd_draws (m : MdState) : (s.setMd m).draws = s.draws := rfl
@[simp] theorem State.setMd_schedule (m : MdState) : (s.setMd m).schedule = s.schedule := rfl

@[simp] theorem State.startMd_operands (h : HashState) : (s.startMd h).operands = s.operands := rfl
@[simp] theorem State.startMd_ieFlag (h : HashState) : (s.startMd h).ieFlag = s.ieFlag := rfl
@[simp] theorem State.startMd_doneFlag (h : HashState) : (s.startMd h).doneFlag = s.doneFlag := rfl
@[simp] theorem State.startMd_error (h : HashState) : (s.startMd h).error = s.error := rfl
@[simp] theorem State.startMd_mdvFlag (h : HashState) : (s.startMd h).mdvFlag = true := rfl
@[simp] theorem State.startMd_kcount (h : HashState) : (s.startMd h).kcount = s.kcount := rfl
@[simp] theorem State.startMd_rk (h : HashState) : (s.startMd h).rk = s.rk := rfl
@[simp] theorem State.startMd_res (h : HashState) : (s.startMd h).res = s.res := rfl
@[simp] theorem State.startMd_padlen (h : HashState) : (s.startMd h).padlen = s.padlen := rfl
@[simp] theorem State.startMd_pad (h : HashState) : (s.startMd h).pad = s.pad := rfl
@[simp] theorem State.startMd_md (h : HashState) : (s.startMd h).md = { s.md with h := h, count := 0 } := rfl
@[simp] theorem State.startMd_pending (h : HashState) : (s.startMd h).pending = s.pending := rfl
@[simp] theorem State.startMd_inReset (h : HashState) : (s.startMd h).inReset = s.inReset := rfl
@[simp] theorem State.startMd_replies (h : HashState) : (s.startMd h).replies = s.replies := rfl
@[simp] theorem State.startMd_draws (h : HashState) : (s.startMd h).draws = s.draws := rfl
@[simp] theorem State.startMd_schedule (h : HashState) : (s.startMd h).schedule = s.schedule := rfl

@[simp] theorem State.setPadding_operands (p : List Byte) : (s.setPadding p).operands = s.operands := rfl
@[simp] theorem State.setPadding_ieFlag (p : List Byte) : (s.setPadding p).ieFlag = s.ieFlag := rfl
@[simp] theorem State.setPadding_doneFlag (p : List Byte) : (s.setPadding p).doneFlag = s.doneFlag := rfl
@[simp] theorem State.setPadding_error (p : List Byte) : (s.setPadding p).error = s.error := rfl
@[simp] theorem State.setPadding_mdvFlag (p : List Byte) : (s.setPadding p).mdvFlag = s.mdvFlag := rfl
@[simp] theorem State.setPadding_kcount (p : List Byte) : (s.setPadding p).kcount = s.kcount := rfl
@[simp] theorem State.setPadding_rk (p : List Byte) : (s.setPadding p).rk = s.rk := rfl
@[simp] theorem State.setPadding_res (p : List Byte) : (s.setPadding p).res = s.res := rfl
@[simp] theorem State.setPadding_padlen (p : List Byte) : (s.setPadding p).padlen = BitVec.ofNat 8 p.length := rfl
@[simp] theorem State.setPadding_pad (p : List Byte) : (s.setPadding p).pad = Vector.ofFn fun i => p.getD i.val 0 := rfl
@[simp] theorem State.setPadding_md (p : List Byte) : (s.setPadding p).md = s.md := rfl
@[simp] theorem State.setPadding_pending (p : List Byte) : (s.setPadding p).pending = s.pending := rfl
@[simp] theorem State.setPadding_inReset (p : List Byte) : (s.setPadding p).inReset = s.inReset := rfl
@[simp] theorem State.setPadding_replies (p : List Byte) : (s.setPadding p).replies = s.replies := rfl
@[simp] theorem State.setPadding_draws (p : List Byte) : (s.setPadding p).draws = s.draws := rfl
@[simp] theorem State.setPadding_schedule (p : List Byte) : (s.setPadding p).schedule = s.schedule := rfl

@[simp] theorem State.popMove_operands : (s.popMove).operands = s.operands := rfl
@[simp] theorem State.popMove_ieFlag : (s.popMove).ieFlag = s.ieFlag := rfl
@[simp] theorem State.popMove_doneFlag : (s.popMove).doneFlag = s.doneFlag := rfl
@[simp] theorem State.popMove_error : (s.popMove).error = s.error := rfl
@[simp] theorem State.popMove_mdvFlag : (s.popMove).mdvFlag = s.mdvFlag := rfl
@[simp] theorem State.popMove_kcount : (s.popMove).kcount = s.kcount := rfl
@[simp] theorem State.popMove_rk : (s.popMove).rk = s.rk := rfl
@[simp] theorem State.popMove_res : (s.popMove).res = s.res := rfl
@[simp] theorem State.popMove_padlen : (s.popMove).padlen = s.padlen := rfl
@[simp] theorem State.popMove_pad : (s.popMove).pad = s.pad := rfl
@[simp] theorem State.popMove_md : (s.popMove).md = s.md := rfl
@[simp] theorem State.popMove_pending : (s.popMove).pending = s.pending := rfl
@[simp] theorem State.popMove_inReset : (s.popMove).inReset = s.inReset := rfl
@[simp] theorem State.popMove_replies : (s.popMove).replies = s.replies := rfl
@[simp] theorem State.popMove_draws : (s.popMove).draws = s.draws := rfl
@[simp] theorem State.popMove_schedule : (s.popMove).schedule = s.schedule.tail := rfl

@[simp] theorem State.raise_operands (e : ErrorCode) : (s.raise e).operands = s.operands := by
  unfold State.raise
  split <;> rfl
@[simp] theorem State.raise_ieFlag (e : ErrorCode) : (s.raise e).ieFlag = s.ieFlag := by
  unfold State.raise
  split <;> rfl
@[simp] theorem State.raise_doneFlag (e : ErrorCode) : (s.raise e).doneFlag = s.doneFlag := by
  unfold State.raise
  split <;> rfl
@[simp] theorem State.raise_error (e : ErrorCode) : (s.raise e).error = some (s.error.getD e) := by
  unfold State.raise
  split <;> simp [*]
@[simp] theorem State.raise_mdvFlag (e : ErrorCode) : (s.raise e).mdvFlag = s.mdvFlag := by
  unfold State.raise
  split <;> rfl
@[simp] theorem State.raise_kcount (e : ErrorCode) : (s.raise e).kcount = s.kcount := by
  unfold State.raise
  split <;> rfl
@[simp] theorem State.raise_rk (e : ErrorCode) : (s.raise e).rk = s.rk := by
  unfold State.raise
  split <;> rfl
@[simp] theorem State.raise_res (e : ErrorCode) : (s.raise e).res = s.res := by
  unfold State.raise
  split <;> rfl
@[simp] theorem State.raise_padlen (e : ErrorCode) : (s.raise e).padlen = s.padlen := by
  unfold State.raise
  split <;> rfl
@[simp] theorem State.raise_pad (e : ErrorCode) : (s.raise e).pad = s.pad := by
  unfold State.raise
  split <;> rfl
@[simp] theorem State.raise_md (e : ErrorCode) : (s.raise e).md = s.md := by
  unfold State.raise
  split <;> rfl
@[simp] theorem State.raise_pending (e : ErrorCode) : (s.raise e).pending = s.pending := by
  unfold State.raise
  split <;> rfl
@[simp] theorem State.raise_inReset (e : ErrorCode) : (s.raise e).inReset = s.inReset := by
  unfold State.raise
  split <;> rfl
@[simp] theorem State.raise_replies (e : ErrorCode) : (s.raise e).replies = s.replies := by
  unfold State.raise
  split <;> rfl
@[simp] theorem State.raise_draws (e : ErrorCode) : (s.raise e).draws = s.draws := by
  unfold State.raise
  split <;> rfl
@[simp] theorem State.raise_schedule (e : ErrorCode) : (s.raise e).schedule = s.schedule := by
  unfold State.raise
  split <;> rfl

/-- Recording an error when ERR = 0 (R203). -/
theorem State.raise_of_none (e : ErrorCode) (h : s.error = none) : s.raise e = { s with error := some e } := by
  simp [State.raise, h]

/-- An error raised while ERR = 1 is not recorded (R203, R207). -/
theorem State.raise_of_some (e e' : ErrorCode) (h : s.error = some e') : s.raise e = s := by
  simp [State.raise, h]

/-- Recording an error, as one record update: the first one is kept (R203). -/
theorem State.raise_eq (e : ErrorCode) : s.raise e = { s with error := some (s.error.getD e) } := by
  cases h : s.error with
  | none => simp [s.raise_of_none e h]
  | some e' => rw [s.raise_of_some e e' h, Option.getD_some, ← h]

@[simp] theorem State.busy_withSchedule (rest : List Move) : ({ s with schedule := rest } : State).busy = s.busy := rfl

end Sys2Proof.Machine
end

