-- ==== Sys2Proof/Laws/Bus.lean ====
section
/-! SUPPORT. What a host access can do, once: the fields a read and a successful write leave alone, and the cases of
`busRead` and `busWrite`. -/

namespace Sys2Proof.Machine

/-- What a successful write other than to CMD can change: the operand registers, IE, and, in STATUS only, DONE and the
error record, which it can only clear (R25, R69). -/
structure WriteShape (p : Place) (s t : State) : Prop where
  rest : t = { s with operands := t.operands, ieFlag := t.ieFlag, doneFlag := t.doneFlag, error := t.error }
  operands_eq : p = .status ∨ p = .ctrl → t.operands = s.operands
  ieFlag_eq : p ≠ .ctrl → t.ieFlag = s.ieFlag
  doneFlag_eq : p ≠ .status → t.doneFlag = s.doneFlag
  error_eq : p ≠ .status → t.error = s.error
  doneFlag_cleared : t.doneFlag = true → s.doneFlag = true
  error_cleared : t.error ≠ none → t.error = s.error

theorem WriteShape.refl (p : Place) (s : State) : WriteShape p s s :=
  ⟨rfl, fun _ => rfl, fun _ => rfl, fun _ => rfl, fun _ => rfl, id, fun _ => rfl⟩

theorem WriteShape.trans {p : Place} {s t u : State} (h : WriteShape p s t) (k : WriteShape p t u) :
    WriteShape p s u where
  rest := by rw [k.rest, h.rest]
  operands_eq hp := (k.operands_eq hp).trans (h.operands_eq hp)
  ieFlag_eq hp := (k.ieFlag_eq hp).trans (h.ieFlag_eq hp)
  doneFlag_eq hp := (k.doneFlag_eq hp).trans (h.doneFlag_eq hp)
  error_eq hp := (k.error_eq hp).trans (h.error_eq hp)
  doneFlag_cleared := h.doneFlag_cleared ∘ k.doneFlag_cleared
  error_cleared hu := by
    have ht := k.error_cleared hu
    rw [ht] at hu
    rw [ht, h.error_cleared hu]

theorem writeByte_shape (p : Place) (i : Nat) (b : Byte) (s : State) : WriteShape p s (s.writeByte p i b) := by
  by_cases hp : p = .status
  · subst hp
    simp only [State.writeByte, State.writeStatusByte]
    repeat' split
    all_goals constructor <;> simp [State.clearDone, State.clearError]
  · cases p <;> first
      | exact absurd rfl hp
      | exact WriteShape.refl _ s
      | (simp only [State.writeByte, State.writeCtrlByte]; split <;> constructor <;> simp)
      | (constructor <;> simp [State.writeByte])

theorem writePlace_shape (p : Place) (i n : Nat) (v : Word32) (s : State) :
    WriteShape p s (s.writePlace p i n v) := by
  unfold State.writePlace
  split
  · exact writeByte_shape _ _ _ _
  · generalize List.range 4 = l
    induction l generalizing s with
    | nil => exact WriteShape.refl p s
    | cons k l ih => exact (writeByte_shape _ _ _ _).trans (ih _)

@[simp] theorem State.writePlace_mdvFlag (p : Place) (i n : Nat) (v : Word32) (s : State) :
    (s.writePlace p i n v).mdvFlag = s.mdvFlag := by rw [(writePlace_shape p i n v s).rest]
@[simp] theorem State.writePlace_kcount (p : Place) (i n : Nat) (v : Word32) (s : State) :
    (s.writePlace p i n v).kcount = s.kcount := by rw [(writePlace_shape p i n v s).rest]
@[simp] theorem State.writePlace_rk (p : Place) (i n : Nat) (v : Word32) (s : State) :
    (s.writePlace p i n v).rk = s.rk := by rw [(writePlace_shape p i n v s).rest]
@[simp] theorem State.writePlace_res (p : Place) (i n : Nat) (v : Word32) (s : State) :
    (s.writePlace p i n v).res = s.res := by rw [(writePlace_shape p i n v s).rest]
@[simp] theorem State.writePlace_padlen (p : Place) (i n : Nat) (v : Word32) (s : State) :
    (s.writePlace p i n v).padlen = s.padlen := by rw [(writePlace_shape p i n v s).rest]
@[simp] theorem State.writePlace_pad (p : Place) (i n : Nat) (v : Word32) (s : State) :
    (s.writePlace p i n v).pad = s.pad := by rw [(writePlace_shape p i n v s).rest]
@[simp] theorem State.writePlace_md (p : Place) (i n : Nat) (v : Word32) (s : State) :
    (s.writePlace p i n v).md = s.md := by rw [(writePlace_shape p i n v s).rest]
@[simp] theorem State.writePlace_pending (p : Place) (i n : Nat) (v : Word32) (s : State) :
    (s.writePlace p i n v).pending = s.pending := by rw [(writePlace_shape p i n v s).rest]
@[simp] theorem State.writePlace_inReset (p : Place) (i n : Nat) (v : Word32) (s : State) :
    (s.writePlace p i n v).inReset = s.inReset := by rw [(writePlace_shape p i n v s).rest]
@[simp] theorem State.writePlace_replies (p : Place) (i n : Nat) (v : Word32) (s : State) :
    (s.writePlace p i n v).replies = s.replies := by rw [(writePlace_shape p i n v s).rest]
@[simp] theorem State.writePlace_draws (p : Place) (i n : Nat) (v : Word32) (s : State) :
    (s.writePlace p i n v).draws = s.draws := by rw [(writePlace_shape p i n v s).rest]
@[simp] theorem State.writePlace_schedule (p : Place) (i n : Nat) (v : Word32) (s : State) :
    (s.writePlace p i n v).schedule = s.schedule := by rw [(writePlace_shape p i n v s).rest]

/-- A host read leaves every field of the block alone but the error record; `replies` and `draws` are the model's
own (R69). -/
theorem busRead_cases (off : Offset) (n : Nat) (s : State) :
    (∃ e, resolve false off n s.busy = .error e ∧ busRead off n s = (s.raise e).reply off n 0) ∨
    (∃ p i, resolve false off n s.busy = .ok (p, i) ∧ readUnspecified p i s = false ∧
      busRead off n s = s.reply off n (placeValue p i n s)) ∨
    (∃ p i v, resolve false off n s.busy = .ok (p, i) ∧ readUnspecified p i s = true ∧
      busRead off n s = s.draw.reply off n v) := by
  cases h : resolve false off n s.busy with
  | error e => exact .inl ⟨e, rfl, by simp [busRead, h]⟩
  | ok r =>
    obtain ⟨p, i⟩ := r
    cases hu : readUnspecified p i s with
    | false => exact .inr (.inl ⟨p, i, rfl, hu, by simp [busRead, h, hu]⟩)
    | true => exact .inr (.inr ⟨p, i, _, rfl, hu, by simp [busRead, h, hu]; rfl⟩)

/-- What a host read can change: the record of reads, the counter of free values, and the error record when it is refused
(R66, R69). -/
theorem busRead_shape (off : Offset) (n : Nat) (s : State) :
    busRead off n s = { s with
      error := (busRead off n s).error, replies := (busRead off n s).replies, draws := (busRead off n s).draws } ∧
    ((busRead off n s).error = s.error ∨ (s.error = none ∧ (busRead off n s).error ≠ none)) := by
  rcases busRead_cases off n s with ⟨e, -, h⟩ | ⟨p, i, -, -, h⟩ | ⟨p, i, v, -, -, h⟩ <;> rw [h]
  · rw [State.raise_eq]
    refine ⟨rfl, ?_⟩
    cases h : s.error <;> simp [State.reply]
  · exact ⟨rfl, .inl rfl⟩
  · exact ⟨rfl, .inl rfl⟩

/-- A host write is refused, issues a command word, or stores its bytes (R66, R69). -/
theorem busWrite_cases (off : Offset) (n : Nat) (v : Word32) (s : State) :
    (∃ e, resolve true off n s.busy = .error e ∧ busWrite off n v s = .next (s.raise e)) ∨
    (∃ i, resolve true off n s.busy = .ok (.cmd, i) ∧ busWrite off n v s = issue v s) ∨
    (∃ p i, resolve true off n s.busy = .ok (p, i) ∧ p ≠ .cmd ∧
      busWrite off n v s = .next (s.writePlace p i n v)) := by
  cases h : resolve true off n s.busy with
  | error e => exact .inl ⟨e, rfl, by simp [busWrite, h]⟩
  | ok r =>
    obtain ⟨p, i⟩ := r
    by_cases hp : p = .cmd
    · subst hp
      exact .inr (.inl ⟨i, rfl, by simp [busWrite, h]⟩)
    · refine .inr (.inr ⟨p, i, rfl, hp, ?_⟩)
      cases p <;> first | exact absurd rfl hp | simp [busWrite, h]

/-- The region of a resolved access, its index, and the guard: a write that is carried out to a guarded place finds
BUSY = 0 (R66, R70). -/
theorem resolve_ok {w : Bool} {off : Offset} {n : Nat} {busy : Bool} {p : Place} {i : Nat}
    (h : resolve w off n busy = .ok (p, i)) :
    (n = 1 ∨ n = 4 ∧ off.toNat % 4 = 0) ∧ ∃ r, regionAt off = some r ∧ r.place = p ∧ i = off.toNat - r.base ∧
      (w = true → r.writable = true ∧ (r.place = .cmd → n = 4) ∧ (r.guarded = true → busy = false)) := by
  unfold resolve at h
  split at h
  · cases h
  · split at h
    · cases h
    · split at h
      · cases h
      · split at h
        · cases h
        · split at h
          · cases h
          · split at h
            · cases h
            · rename_i h1 h2 r hr h3 h4 h5
              injection h with h
              injection h with hp hi
              refine ⟨by omega, r, hr, hp, hi.symm, fun hw => ?_⟩
              subst hw
              simp only [true_and, Bool.not_eq_false] at h3 h4 h5
              refine ⟨h3, fun hc => ?_, fun hg => by simpa [hg] using h5⟩
              by_contra hn
              exact h4 ⟨hc, by omega⟩

/-- A write that is carried out while BUSY = 1 goes to STATUS or CTRL (R70). -/
theorem resolve_write_busy {off : Offset} {n : Nat} {p : Place} {i : Nat}
    (h : resolve true off n true = .ok (p, i)) : p = .status ∨ p = .ctrl := by
  obtain ⟨-, r, hr, hp, -, hw⟩ := resolve_ok h
  obtain ⟨hwr, -, hg⟩ := hw rfl
  have hmem := List.mem_of_find?_eq_some hr
  subst hp
  simp only [registerMap, List.mem_cons, List.not_mem_nil, or_false] at hmem
  rcases hmem with rfl | rfl | rfl | rfl | rfl | rfl | rfl | rfl | rfl | rfl | rfl | rfl | rfl | rfl | rfl | rfl |
    rfl | rfl | rfl <;> simp_all

/-! What the checks of R66 answer, by the offset's kind. The facts about the register map are finite: all 1024 offsets. -/

theorem regionAt_none_iff : ∀ off : Offset, regionAt off = none ↔ Unmapped off := by decide +kernel

theorem regionAt_readOnly : ∀ off : Offset, ReadOnly off → ∃ r ∈ regionAt off, r.writable = false := by decide +kernel

theorem regionAt_guarded : ∀ off : Offset, GuardedStorage off →
    ∃ r ∈ regionAt off, r.writable = true ∧ r.guarded = true ∧ r.place ≠ .cmd ∧ r.place.isOutput = false := by
  decide +kernel

theorem regionAt_statusOrCtrl : ∀ off : Offset, StatusOrCtrl off →
    ∃ r ∈ regionAt off, r.writable = true ∧ r.guarded = false ∧ (r.place = .status ∨ r.place = .ctrl) := by
  decide +kernel

theorem regionAt_readOnly_output : ∀ off : Offset, ReadOnly off → ∃ r ∈ regionAt off, r.place.isOutput = true := by
  decide +kernel

theorem regionAt_cmd : ∀ off : Offset, off.toNat < 4 ↔ ∃ r ∈ regionAt off, r.place = .cmd := by decide +kernel

theorem resolve_illegal_size {w busy : Bool} {off : Offset} {n : Nat} (h : n ≠ 1 ∧ n ≠ 4) :
    resolve w off n busy = .error .badAccess := by
  unfold resolve
  rw [if_pos h]

theorem resolve_misaligned {w busy : Bool} {off : Offset} (h : off.toNat % 4 ≠ 0) :
    resolve w off 4 busy = .error .badAccess := by
  simp [resolve, h]

/-- The answer for a legal size is decided by the region. -/
theorem resolve_legal {w busy : Bool} {off : Offset} {n : Nat} (h : LegalSize off n) :
    resolve w off n busy =
      match regionAt off with
      | none => .error .badAccess
      | some r =>
        if w ∧ r.writable = false then .error .badAccess
        else if w ∧ r.place = .cmd ∧ n = 1 then .error .badAccess
        else if w ∧ r.guarded ∧ busy then .error .busyWrite
        else .ok (r.place, off.toNat - r.base) :=
  (if_neg (by omega)).trans (if_neg (by omega))

theorem resolve_unmapped {w busy : Bool} {off : Offset} {n : Nat} (h : Unmapped off) :
    resolve w off n busy = .error .badAccess := by
  unfold resolve
  rw [(regionAt_none_iff off).2 h]
  split <;> try rfl
  split <;> rfl

theorem resolve_readOnly {busy : Bool} {off : Offset} {n : Nat} (h : ReadOnly off) :
    resolve true off n busy = .error .badAccess := by
  obtain ⟨r, hr, hw⟩ := regionAt_readOnly off h
  unfold resolve
  rw [Option.mem_def.1 hr]
  split <;> try rfl
  split <;> try rfl
  simp [hw]

theorem resolve_cmd_byte {busy : Bool} {off : Offset} (h : off.toNat < 4) :
    resolve true off 1 busy = .error .badAccess := by
  obtain ⟨r, hr, hc⟩ := (regionAt_cmd off).1 h
  rw [resolve_legal (.inl rfl), Option.mem_def.1 hr]
  cases hw : r.writable <;> simp [hw, hc]

theorem resolve_cmd_word (busy : Bool) :
    resolve true 0x000 4 busy = if busy then .error .busyWrite else .ok (.cmd, 0) := by
  cases busy <;> decide

theorem resolve_guarded_busy {off : Offset} {n : Nat} (h : LegalSize off n) (hg : GuardedStorage off) :
    resolve true off n true = .error .busyWrite := by
  obtain ⟨r, hr, hw, hg, hc, -⟩ := regionAt_guarded off hg
  rw [resolve_legal h, Option.mem_def.1 hr]
  simp [hw, hg, hc]

/-- A legal read of a mapped offset is carried out. -/
theorem resolve_read {busy : Bool} {off : Offset} {n : Nat} (h : LegalSize off n) (hm : ¬ Unmapped off) :
    ∃ r, regionAt off = some r ∧ resolve false off n busy = .ok (r.place, off.toNat - r.base) := by
  cases hr : regionAt off with
  | none => exact absurd ((regionAt_none_iff off).1 hr) hm
  | some r => exact ⟨r, rfl, by rw [resolve_legal h, hr]; simp⟩

/-- A legal write to STATUS or CTRL, and one to a guarded register while BUSY = 0, is carried out. -/
theorem resolve_write {busy : Bool} {off : Offset} {n : Nat} (h : LegalSize off n)
    (hk : StatusOrCtrl off ∨ (busy = false ∧ GuardedStorage off)) :
    ∃ r, regionAt off = some r ∧ r.place ≠ .cmd ∧ resolve true off n busy = .ok (r.place, off.toNat - r.base) := by
  rcases hk with hk | ⟨rfl, hk⟩
  · obtain ⟨r, hr, hw, hg, hp⟩ := regionAt_statusOrCtrl off hk
    have hc : r.place ≠ .cmd := by rcases hp with hp | hp <;> simp [hp]
    exact ⟨r, hr, hc, by rw [resolve_legal h, Option.mem_def.1 hr]; simp [hw, hg, hc]⟩
  · obtain ⟨r, hr, hw, hg, hc, -⟩ := regionAt_guarded off hk
    exact ⟨r, hr, hc, by rw [resolve_legal h, Option.mem_def.1 hr]; simp [hw, hc]⟩

/-- The four lanes of an aligned word lie in one place, one after the other (R24, R62). -/
theorem regionAt_lanes : ∀ off : Offset, off.toNat % 4 = 0 → ∀ r ∈ regionAt off, ∀ k < 4,
    regionAt (off + BitVec.ofNat 10 k) = some r ∧
      (off + BitVec.ofNat 10 k).toNat - r.base = off.toNat - r.base + k := by decide +kernel

/-- The output places are the read-only ones (R43, R67). -/
theorem regionAt_isOutput_iff : ∀ off : Offset, ∀ r ∈ regionAt off, r.place.isOutput = true ↔ ReadOnly off := by
  decide +kernel

end Sys2Proof.Machine
end

