-- ==== Sys2Proof/Laws/Vectors.lean ====
section
/-! SUPPORT. Reading and replacing one entry of a fixed-length sequence. -/

namespace Sys2Proof.Machine

variable {α : Type} [Inhabited α] {n : Nat}

@[simp] theorem vget_vset_self (v : Vector α n) {i : Nat} (h : i < n) (x : α) : vget (vset v i x) i = x := by
  simp [vget, vset, h]

@[simp] theorem vget_vset_ne (v : Vector α n) {i j : Nat} (h : i ≠ j) (x : α) :
    vget (vset v i x) j = vget v j := by
  simp [vget, vset, Vector.getElem?_setIfInBounds_ne h]

@[simp] theorem vget_ofFn (f : Fin n → α) {i : Nat} (h : i < n) : vget (Vector.ofFn f) i = f ⟨i, h⟩ := by
  simp [vget, h]

/-- An entry of the sequence, read from its list. -/
theorem vget_eq_getD_toList (v : Vector α n) (i : Nat) : vget v i = v.toList.getD i default := by
  simp [vget, List.getD_eq_getElem?_getD]

@[simp] theorem getD_toList (v : Vector α n) (i : Nat) : v.toList.getD i default = vget v i :=
  (vget_eq_getD_toList v i).symm

/-- Two sequences with the same entries are equal. -/
theorem vector_ext_vget {v w : Vector α n} (h : ∀ i, i < n → vget v i = vget w i) : v = w := by
  apply Vector.ext
  intro i hi
  simpa [vget, hi] using h i hi

end Sys2Proof.Machine
end

