-- ==== Sys2Proof/Laws/Engines.lean ====
section
/-! SUPPORT. The functions of the two engines: what a round-key Word depends on, and the lengths and counts of padding and
absorption. -/

namespace Sys2Proof.Machine

/-- `NextWord(i, w)` depends on the Words below `i` only (R140). -/
theorem nextWord_congr {i : Nat} {v w : List AesWord} (h4 : 4 ≤ i)
    (h : ∀ j < i, v.getD j default = w.getD j default) : nextWord i v = nextWord i w := by
  simp only [nextWord]
  rw [h (i - 1) (by omega), h (i - 4) (by omega)]

/-- The padding has the length R164 gives. -/
theorem padBytes_length (l : Word64) : (padBytes l).length = padLength l := by
  have h8 : (le64inv (8 * l)).length = 8 := by simp [le64inv]
  have : 9 ≤ padLength l := by
    unfold padLength
    simp only
    split <;> omega
  simp only [padBytes, List.length_append, List.length_cons, List.length_replicate]
  rw [h8]
  omega

@[simp] theorem absorbAll_nil (m : MdState) : absorbAll m [] = m := rfl

@[simp] theorem absorbAll_cons (m : MdState) (x : Byte) (xs : List Byte) :
    absorbAll m (x :: xs) = absorbAll (absorb m x) xs := rfl

theorem absorbAll_append (m : MdState) (xs ys : List Byte) :
    absorbAll m (xs ++ ys) = absorbAll (absorbAll m xs) ys := by simp [absorbAll]

/-- COUNT grows by the number of bytes absorbed, modulo 2^64 (R39). -/
theorem absorbAll_count (m : MdState) (xs : List Byte) :
    (absorbAll m xs).count = m.count + BitVec.ofNat 64 xs.length := by
  induction xs generalizing m with
  | nil => simp
  | cons x xs ih =>
    rw [absorbAll_cons, ih]
    simp only [absorb, List.length_cons]
    rw [Nat.add_comm xs.length 1, BitVec.ofNat_add, ← BitVec.add_assoc]
    rfl

end Sys2Proof.Machine
end

