-- ==== Sys2Proof/Laws/Exec.lean ====
section
/-! SUPPORT. What `exec` can do, once: every meaning is `runCommand` of the command's check and effect, and `runCommand`
ignores, rejects, accepts, completes or stops. -/

namespace Sys2Proof.Machine

/-- The checks of each command, as its meaning makes them (R110). -/
def commandCheck (i : Instr) (o : Operands) (s : State) : Option ErrorCode :=
  match i with
  | .nop | .boXor | .boRot | .boSub => none
  | .boRcon n => checkRound n
  | .ksInit | .ksExpand => checkKeySize o
  | .ksStep => checkKsStep s
  | .mdInit | .mdLoaddig | .mdPadgen => none
  | .mdSetcnt => checkSetcnt o s
  | .mdUpdate n => checkUpdate n s
  | .mdFinal => checkMdv s none

/-- The meanings make the checks of the rules, in the rules' order. -/
theorem commandCheck_eq_firstFailing (i : Instr) (o : Operands) (s : State) :
    commandCheck i o s = firstFailing i o s := by
  have key : (o.keyLen = 16) ↔ o.keyLen.toNat = 16 := by
    rw [← BitVec.toNat_inj]
    rfl
  cases i with
  | nop | boXor | boRot | boSub | mdInit | mdLoaddig | mdPadgen => rfl
  | boRcon n =>
    by_cases h : 1 ≤ n <;> by_cases k : n ≤ 10 <;> simp [commandCheck, firstFailing, ruleChecks, checkRound, h, k]
  | ksInit | ksExpand =>
    by_cases h : o.keyLen.toNat = 16 <;> simp only [commandCheck, firstFailing, ruleChecks, checkKeySize, key, h] <;>
      rfl
  | ksStep =>
    by_cases h : 4 ≤ s.kcount.toNat <;> by_cases k : s.kcount.toNat ≤ 43 <;>
      simp [commandCheck, firstFailing, ruleChecks, checkKsStep, h, k]
  | mdSetcnt =>
    cases hm : s.mdvFlag <;> by_cases h : s.md.count.toNat % 64 = 0 <;> by_cases k : o.arg.toNat % 64 = 0 <;>
      simp [commandCheck, firstFailing, ruleChecks, checkSetcnt, checkMdv, hm, h, k]
  | mdUpdate n =>
    cases hm : s.mdvFlag <;> by_cases h : n ≤ 64 <;>
      simp [commandCheck, firstFailing, ruleChecks, checkUpdate, checkMdv, hm, h]
  | mdFinal => cases hm : s.mdvFlag <;> simp [commandCheck, firstFailing, ruleChecks, checkMdv, hm]

/-- The Effect part of each command's rule, as its meaning applies it (R110). -/
def commandEffect (i : Instr) (o : Operands) (s : State) : State :=
  match i with
  | .nop => s
  | .boXor => s.setRes (xorWord o.opa o.opb)
  | .boRot => s.setRes (rotWord o.opa)
  | .boSub => s.setRes (subWord o.opa)
  | .boRcon n => s.setRes (rconWord n)
  | .ksInit => s.setSchedule ((List.range 4).foldl (fun rk j => vset rk j (keyWord o.key j)) s.rk) 4
  | .ksStep => s.setSchedule (vset s.rk s.kcount.toNat (nextWord s.kcount.toNat s.rk.toList)) (s.kcount + 1)
  | .ksExpand => s.setSchedule (Vector.ofFn fun i => (expand o.key).getD i.val default) 44
  | .mdInit => s.startMd md4IV
  | .mdLoaddig => s.startMd (deser o.din)
  | .mdSetcnt => s.setMd { s.md with count := o.arg }
  | .mdUpdate n => s.setMd (absorbAll s.md (o.msg.toList.take n))
  | .mdFinal => s.setMd (absorbAll s.md (padBytes s.md.count))
  | .mdPadgen => s.setPadding (padBytes o.arg)

/-- No command's effect writes anything but the outputs of the engines (R43). -/
theorem commandEffect_frame (i : Instr) (o : Operands) (s : State) :
    commandEffect i o s = { s with
      res := (commandEffect i o s).res, rk := (commandEffect i o s).rk, kcount := (commandEffect i o s).kcount
      padlen := (commandEffect i o s).padlen, pad := (commandEffect i o s).pad, md := (commandEffect i o s).md
      mdvFlag := (commandEffect i o s).mdvFlag } := by
  cases i <;> rfl

/-- Every meaning is the two-phase template over its own check and effect (R110). -/
theorem exec_eq_runCommand (i : Instr) (s : State) :
    exec i s = runCommand i (commandCheck i) (commandEffect i) s := by
  cases i <;> rfl

/-- While ERR = 1 a command is ignored (R201). -/
theorem exec_ignored {i : Instr} {s : State} (hp : s.pending = none) (he : s.error ≠ none) :
    exec i s = .next s := by
  obtain ⟨e, he⟩ := Option.ne_none_iff_exists'.mp he
  simp [exec_eq_runCommand, runCommand, beginIssue, State.errFlag, hp, he]

theorem commandCheck_clearDone (i : Instr) (o : Operands) (s : State) :
    commandCheck i o s.clearDone = commandCheck i o s := by
  cases i <;> rfl

theorem commandCheck_popMove (i : Instr) (o : Operands) (s : State) :
    commandCheck i o s.popMove = commandCheck i o s := by
  cases i <;> rfl

/-- A command that fails a check is rejected: DONE 0 and the error recorded, nothing else (R201). -/
theorem exec_rejected {i : Instr} {s : State} {e : ErrorCode} (hp : s.pending = none) (he : s.error = none)
    (hc : commandCheck i s.operands s = some e) :
    exec i s = .next { s with doneFlag := false, error := some e } := by
  have hc' : commandCheck i s.operands s.clearDone = some e := by rw [commandCheck_clearDone, hc]
  simp [exec_eq_runCommand, runCommand, beginIssue, State.errFlag, hp, he, hc', State.raise]

/-- A command that passes its checks is accepted: DONE 0, and PENDING holds it with the operand values (R201). -/
theorem exec_accepted {i : Instr} {s : State} (hp : s.pending = none) (he : s.error = none)
    (hc : commandCheck i s.operands s = none) :
    exec i s = .next { s with doneFlag := false, pending := some ⟨i, s.operands⟩ } := by
  have hc' : commandCheck i s.operands s.clearDone = none := by rw [commandCheck_clearDone, hc]
  simp [exec_eq_runCommand, runCommand, beginIssue, State.errFlag, hp, he, hc']
  simp [State.accept, State.clearDone, he]

/-- The completion transition (R251). -/
theorem exec_completes {i : Instr} {s : State} {p : Pending} (hp : s.pending = some p)
    (hc : commandCheck i p.operands s = none) :
    exec i s = .next (commandEffect i p.operands s).complete := by
  simp [exec_eq_runCommand, runCommand, hp, hc]

/-- Everything `exec` can answer with a next state: ignored, rejected, accepted or completed. -/
theorem exec_next_cases {i : Instr} {s t : State} (h : exec i s = .next t) :
    (s.pending = none ∧ s.error ≠ none ∧ t = s) ∨
    (s.pending = none ∧ s.error = none ∧ ∃ e, commandCheck i s.operands s = some e ∧
      t = { s with doneFlag := false, error := some e }) ∨
    (s.pending = none ∧ s.error = none ∧ commandCheck i s.operands s = none ∧
      t = { s with doneFlag := false, pending := some ⟨i, s.operands⟩ }) ∨
    (∃ p, s.pending = some p ∧ commandCheck i p.operands s = none ∧
      t = (commandEffect i p.operands s).complete) := by
  rcases Option.eq_none_or_eq_some s.pending with hp | ⟨p, hp⟩
  · by_cases he : s.error = none
    · cases hc : commandCheck i s.operands s with
      | some e =>
        rw [exec_rejected hp he hc] at h
        injection h with h
        exact .inr (.inl ⟨hp, he, e, rfl, h.symm⟩)
      | none =>
        rw [exec_accepted hp he hc] at h
        injection h with h
        exact .inr (.inr (.inl ⟨hp, he, rfl, h.symm⟩))
    · rw [exec_ignored hp he] at h
      injection h with h
      exact .inl ⟨hp, he, h.symm⟩
  · cases hc : commandCheck i p.operands s with
    | none =>
      rw [exec_completes hp hc] at h
      injection h with h
      exact .inr (.inr (.inr ⟨p, hp, hc, h.symm⟩))
    | some e => simp [exec_eq_runCommand, runCommand, hp, hc] at h

/-- `exec` stops only at the completion of a command its checks reject. -/
theorem exec_stops {i : Instr} {s : State} (h : ∀ t, exec i s ≠ .next t) :
    ∃ p e, s.pending = some p ∧ commandCheck i p.operands s = some e ∧ exec i s = .fault .pendingRejected := by
  cases hp : s.pending with
  | none =>
    by_cases he : s.error = none
    · cases hc : commandCheck i s.operands s with
      | some e => exact absurd (exec_rejected hp he hc) (h _)
      | none => exact absurd (exec_accepted hp he hc) (h _)
    · exact absurd (exec_ignored hp he) (h _)
  | some p =>
    cases hc : commandCheck i p.operands s with
    | none => exact absurd (exec_completes hp hc) (h _)
    | some e => exact ⟨p, e, rfl, hc, by simp [exec_eq_runCommand, runCommand, hp, hc]⟩

end Sys2Proof.Machine
end

