-- ==== Sys2Proof/Laws/Fields.lean ====
section
/-! SUPPORT. The three fields of a word put together from them (30_encoding R90). -/

namespace Sys2Proof

theorem opField_append (op imm : Byte) : opField (op ++ (0 : BitVec 16) ++ imm) = op := by
  change (((op ++ (0 : BitVec 16)) ++ imm : BitVec (8 + 16 + 8)).extractLsb' 24 8) = op
  ext i hi
  simp only [BitVec.getElem_extractLsb', BitVec.getLsbD_append]
  simp [show ¬ 24 + i < 8 by omega, show ¬ 24 + i - 8 < 16 by omega, show 24 + i - 8 - 16 = i by omega,
    BitVec.getLsbD_eq_getElem hi]

theorem rsvField_append (op imm : Byte) : rsvField (op ++ (0 : BitVec 16) ++ imm) = 0 := by
  change (((op ++ (0 : BitVec 16)) ++ imm : BitVec (8 + 16 + 8)).extractLsb' 8 16) = 0
  ext i hi
  simp only [BitVec.getElem_extractLsb', BitVec.getLsbD_append]
  simp [show ¬ 8 + i < 8 by omega, hi]

theorem immField_append (op imm : Byte) : immField (op ++ (0 : BitVec 16) ++ imm) = imm := by
  change (((op ++ (0 : BitVec 16)) ++ imm : BitVec (8 + 16 + 8)).extractLsb' 0 8) = imm
  ext i hi
  simp only [BitVec.getElem_extractLsb', BitVec.getLsbD_append]
  simp [hi]

end Sys2Proof
end

