-- ==== Sys2Proof/Laws/PerInstr.lean ====
section
/-! SUPPORT. The family EncodedFields: the fields of a command's word are its own (30_encoding R90, R94). -/

namespace Sys2Proof.Laws.EncodedFields

/-- The word of a command holds its opcode in OP and 0 in RSV, and its row of R94 is that opcode's. -/
def Statement (i : Instr) : Prop :=
  opField (encode i) = i.opcode ∧ rsvField (encode i) = 0 ∧ opcodeRow i.opcode i.immediate = some i

theorem nop : Statement .nop := ⟨opField_append _ _, rsvField_append _ _, rfl⟩
theorem boXor : Statement .boXor := ⟨opField_append _ _, rsvField_append _ _, rfl⟩
theorem boRot : Statement .boRot := ⟨opField_append _ _, rsvField_append _ _, rfl⟩
theorem boSub : Statement .boSub := ⟨opField_append _ _, rsvField_append _ _, rfl⟩
theorem ksInit : Statement .ksInit := ⟨opField_append _ _, rsvField_append _ _, rfl⟩
theorem ksStep : Statement .ksStep := ⟨opField_append _ _, rsvField_append _ _, rfl⟩
theorem ksExpand : Statement .ksExpand := ⟨opField_append _ _, rsvField_append _ _, rfl⟩
theorem mdInit : Statement .mdInit := ⟨opField_append _ _, rsvField_append _ _, rfl⟩
theorem mdLoaddig : Statement .mdLoaddig := ⟨opField_append _ _, rsvField_append _ _, rfl⟩
theorem mdSetcnt : Statement .mdSetcnt := ⟨opField_append _ _, rsvField_append _ _, rfl⟩
theorem mdFinal : Statement .mdFinal := ⟨opField_append _ _, rsvField_append _ _, rfl⟩
theorem mdPadgen : Statement .mdPadgen := ⟨opField_append _ _, rsvField_append _ _, rfl⟩
theorem boRcon (n : Nat) : Statement (.boRcon n) := ⟨opField_append _ _, rsvField_append _ _, rfl⟩
theorem mdUpdate (n : Nat) : Statement (.mdUpdate n) := ⟨opField_append _ _, rsvField_append _ _, rfl⟩

end Sys2Proof.Laws.EncodedFields
end

