-- ==== Sys2Proof/Laws/Step.lean ====
section
/-! SUPPORT. What a step can do, once: idle, complete the pending command, perform a host access, or take a level of the
reset input. -/

namespace Sys2Proof.Machine

/-- A step that takes a host read. -/
theorem step_read {s : State} {off : Offset} {n : Nat} {rest : List Move} (h : s.Presents (.read off n) rest) :
    step s = .next (busRead off n { s with schedule := rest }) := by
  obtain ⟨hs, hr⟩ := h
  simp [step, nextMove, hs, hostMove, hr]

/-- A step that takes a host write. -/
theorem step_write {s : State} {off : Offset} {n : Nat} {v : Word32} {rest : List Move}
    (h : s.Presents (.write off n v) rest) : step s = busWrite off n v { s with schedule := rest } := by
  obtain ⟨hs, hr⟩ := h
  simp [step, nextMove, hs, hostMove, hr]

/-- A step that is the engine's turn. -/
theorem step_engine {s : State} {rest : List Move} (h : s.EngineTurn rest) :
    step s = engineMove { s with schedule := rest } := by
  rcases h with h | ⟨h, rfl⟩
  · simp [step, nextMove, h]
  · have : ({ s with schedule := [] } : State) = s := by cases s; simp_all
    rw [this]
    simp [step, nextMove, h]

/-- What the host's move does with a command word: ignored, illegal, rejected or accepted (R201). -/
theorem issue_next_cases {w : Word32} {s t : State} (hp : s.pending = none) (h : issue w s = .next t) :
    (s.error ≠ none ∧ t = s) ∨
    (s.error = none ∧ ∃ e, t = { s with doneFlag := false, error := some e }) ∨
    (s.error = none ∧ ∃ i, decodeWord w = .ok i ∧ commandCheck i s.operands s = none ∧
      t = { s with doneFlag := false, pending := some ⟨i, s.operands⟩ }) := by
  unfold issue at h
  split at h
  · by_cases he : s.error = none
    · simp only [beginIssue, State.errFlag, he, Option.isSome_none] at h
      injection h with h
      refine .inr (.inl ⟨he, .illegalCmd, ?_⟩)
      rw [← h]
      exact State.raise_of_none s.clearDone _ he
    · obtain ⟨e, he'⟩ := Option.ne_none_iff_exists'.mp he
      simp only [beginIssue, State.errFlag, he', Option.isSome_some] at h
      injection h with h
      exact .inl ⟨he, h.symm⟩
  · rename_i i hd
    rcases exec_next_cases h with ⟨-, he, ht⟩ | ⟨-, he, e, -, ht⟩ | ⟨-, he, hc, ht⟩ | ⟨p, hp', -⟩
    · exact .inl ⟨he, ht⟩
    · exact .inr (.inl ⟨he, e, ht⟩)
    · exact .inr (.inr ⟨he, i, hd, hc, ht⟩)
    · rw [hp] at hp'
      cases hp'

/-- Everything a step can answer with a next state. `s.popMove` is `s` with its next move taken. -/
theorem step_next_cases {s t : State} (h : step s = .next t) :
    -- the engine has a turn and nothing is pending
    (s.pending = none ∧ t = s.popMove) ∨
    -- the completion transition
    (∃ p, s.pending = some p ∧ commandCheck p.instr p.operands s = none ∧
      t = (commandEffect p.instr p.operands s.popMove).complete) ∨
    -- the reset input
    (∃ b rest, s.schedule = .resetInput b :: rest ∧ t = s.popMove.driveReset b) ∨
    -- a host read
    (∃ off n rest, s.schedule = .host (.read off n) :: rest ∧ s.inReset = false ∧ t = busRead off n s.popMove) ∨
    -- a host write
    (∃ off n v rest, s.schedule = .host (.write off n v) :: rest ∧ s.inReset = false ∧
      busWrite off n v s.popMove = .next t) := by
  have engine : ∀ {u : State}, u = s.popMove → engineMove u = .next t →
      (s.pending = none ∧ t = s.popMove) ∨
      (∃ p, s.pending = some p ∧ commandCheck p.instr p.operands s = none ∧
        t = (commandEffect p.instr p.operands s.popMove).complete) := by
    rintro u rfl hu
    unfold engineMove at hu
    cases hp : s.pending with
    | none =>
      simp only [State.popMove_pending, hp] at hu
      injection hu with hu
      exact .inl ⟨rfl, hu.symm⟩
    | some p =>
      simp only [State.popMove_pending, hp] at hu
      rcases exec_next_cases hu with ⟨hn, -⟩ | ⟨hn, -⟩ | ⟨hn, -⟩ | ⟨q, hq, hc, ht⟩
      · simp [hp] at hn
      · simp [hp] at hn
      · simp [hp] at hn
      · simp only [State.popMove_pending, hp] at hq
        injection hq with hq
        subst hq
        rw [commandCheck_popMove] at hc
        exact .inr ⟨p, rfl, hc, ht⟩
  unfold step nextMove at h
  split at h
  · rename_i hs
    rcases engine (by rw [State.popMove, hs]; cases s; simp_all) h with h | h
    · exact .inl h
    · exact .inr (.inl h)
  · rename_i m rest hs
    have hpop : { s with schedule := rest } = s.popMove := by rw [State.popMove, hs]; rfl
    simp only [hpop] at h
    split at h
    · rename_i a
      unfold hostMove at h
      split at h
      · cases h
      · rename_i hr
        have hr : s.inReset = false := by simpa using hr
        cases a with
        | read off n =>
          injection h with h
          exact .inr (.inr (.inr (.inl ⟨off, n, rest, hs, hr, h.symm⟩)))
        | write off n v => exact .inr (.inr (.inr (.inr ⟨off, n, v, rest, hs, hr, h⟩)))
    · rcases engine rfl h with h | h
      · exact .inl h
      · exact .inr (.inl h)
    · rename_i b
      injection h with h
      exact .inr (.inr (.inl ⟨b, rest, hs, h.symm⟩))

end Sys2Proof.Machine
end

