-- ==== Sys2Proof/Tests/Slice0.lean ====
section
/-! SUPPORT. Small tests. Expected values come from spec/95_test_vectors.md and from the examples of the rules; each
`test_witness_…` shows a state and operands that meet the hypotheses of the obligation it names. -/

namespace Sys2Proof.Tests

open Sys2Proof.Machine

-- One theorem after the other: many at once ask for more threads than the memory limit allows.
set_option Elab.async false

/-! ### Small states -/

/-- The test key of 95_test_vectors S1. -/
def testKey : Window 16 :=
  #v[0x2b, 0x7e, 0x15, 0x16, 0x28, 0xae, 0xd2, 0xa6, 0xab, 0xf7, 0x15, 0x88, 0x09, 0xcf, 0x4f, 0x3c]

/-- MSG holding "abc" (95_test_vectors P3). -/
def abcMsg : Window 64 := Vector.ofFn fun i => [0x61, 0x62, 0x63].getD i.val 0

/-- An idle state: the test key loaded with KEY_LEN = 16, "abc" in MSG, ARG = 96. -/
def idle : State :=
  { State.reset with operands := { State.reset.operands with keyLen := 16, arg := 96, key := testKey, msg := abcMsg } }

/-- The idle state with OPA and OPB written. -/
def withWords (a b : AesWord) : State := { idle with operands := { idle.operands with opa := a, opb := b } }

/-- The idle state with an MD4 computation started from IV and `count` bytes counted. -/
def started (count : Word64) : State := { idle with mdvFlag := true, md := { idle.md with h := md4IV, count := count } }

/-- A state with a command pending. -/
def loaded (i : Instr) (s : State) : State := { s with pending := some ⟨i, s.operands⟩ }

/-- A state whose next move is a host access. -/
def facing (a : Access) (s : State) : State := { s with schedule := [.host a] }

/-- The next state of a command, or of a step. -/
def nextOf (s : State) (o : Host.Outcome State Fault Refusal) : State :=
  match o with
  | .next t => t
  | .fault _ => s
  | .refused _ => s

/-- The state after a pending command completes. -/
def completed (i : Instr) (s : State) : State := nextOf s (exec i (loaded i s))

/-- The state after one step. -/
def stepped (s : State) : State := nextOf s (step s)

/-! ### Well-formedness: each check has a term it refuses -/

theorem test_wf_round : (Instr.boRcon 255).wellFormed = true ∧ (Instr.boRcon 256).wellFormed = false := by decide
theorem test_wf_count : (Instr.mdUpdate 255).wellFormed = true ∧ (Instr.mdUpdate 256).wellFormed = false := by decide

/-! ### Decoding: words written out from R90 and R94, OP in bits 31:24, RSV 0 in 23:8, IMM8 in 7:0 -/

theorem test_decode_nop : decodeWord 0b00000000000000000000000000000000 = .ok .nop := by decide
theorem test_decode_bo_xor : decodeWord 0b00000001000000000000000000000000 = .ok .boXor := by decide
theorem test_decode_bo_rot : decodeWord 0b00000010000000000000000000000000 = .ok .boRot := by decide
theorem test_decode_bo_sub : decodeWord 0b00000011000000000000000000000000 = .ok .boSub := by decide
theorem test_decode_bo_rcon : decodeWord 0b00000100000000000000000000001010 = .ok (.boRcon 10) := by decide
theorem test_decode_ks_init : decodeWord 0b00010000000000000000000000000000 = .ok .ksInit := by decide
theorem test_decode_ks_step : decodeWord 0b00010001000000000000000000000000 = .ok .ksStep := by decide
theorem test_decode_ks_expand : decodeWord 0b00010010000000000000000000000000 = .ok .ksExpand := by decide
theorem test_decode_md_init : decodeWord 0b00100000000000000000000000000000 = .ok .mdInit := by decide
theorem test_decode_md_loaddig : decodeWord 0b00100001000000000000000000000000 = .ok .mdLoaddig := by decide
theorem test_decode_md_setcnt : decodeWord 0b00100010000000000000000000000000 = .ok .mdSetcnt := by decide
theorem test_decode_md_update : decodeWord 0b00100011000000000000000001000000 = .ok (.mdUpdate 64) := by decide
theorem test_decode_md_final : decodeWord 0b00100100000000000000000000000000 = .ok .mdFinal := by decide
theorem test_decode_md_padgen : decodeWord 0b00100101000000000000000000000000 = .ok .mdPadgen := by decide

/-- T-ENC-2 to T-ENC-6 and T-ENC-10: the illegal words. -/
theorem test_decode_illegal :
    [0x05000000, 0x0F000000, 0x13000000, 0x1F000000, 0x26000000, 0xFF000000].map (fun w => decodeTableWord 32 w) =
      [none, none, none, none, none, none] ∧
    [0x12000001, 0x12000100, 0x00000001, 0x040001FF].map (fun w => decodeTableWord 32 w) =
      [none, none, none, none] := by decide

/-! ### Effects of the commands -/

/-- T-BUS-1. -/
theorem test_nop : (completed .nop State.reset).statusWord = 0x00000002 := by decide +kernel
/-- T-BO-1. -/
theorem test_bo_xor : (completed .boXor (withWords ⟨0x2b, 0x7e, 0x15, 0x16⟩ ⟨0x8b, 0x84, 0xeb, 0x01⟩)).res =
    ⟨0xa0, 0xfa, 0xfe, 0x17⟩ := by decide +kernel
/-- T-BO-6. -/
theorem test_bo_rot : (completed .boRot (withWords ⟨1, 2, 3, 4⟩ ⟨0, 0, 0, 0⟩)).res = ⟨2, 3, 4, 1⟩ := by
  decide +kernel
/-- T-BO-9. -/
theorem test_bo_sub : (completed .boSub (withWords ⟨0xcf, 0x4f, 0x3c, 0x09⟩ ⟨0, 0, 0, 0⟩)).res =
    ⟨0x8a, 0x84, 0xeb, 0x01⟩ := by decide +kernel
/-- The BO_RCON table: rounds 9 and 10. -/
theorem test_bo_rcon : (completed (.boRcon 9) idle).res = ⟨0x1b, 0, 0, 0⟩ ∧
    (completed (.boRcon 10) idle).res = ⟨0x36, 0, 0, 0⟩ := by decide +kernel
/-- T-ENC-8 and T-ENC-9: rounds 11 and 0 are rejected. -/
theorem test_bo_rcon_round : (nextOf idle (exec (.boRcon 11) idle)).statusWord = 0x00000404 ∧
    (nextOf idle (exec (.boRcon 0) idle)).statusWord = 0x00000404 := by decide +kernel
/-- T-KS-11. -/
theorem test_ks_init : let t := completed .ksInit idle
    t.kcount = 4 ∧ vget t.rk 3 = ⟨0x09, 0xcf, 0x4f, 0x3c⟩ ∧ t.statusWord = 0x00000002 := by decide +kernel
/-- T-KS-8: a length of 17 is rejected. -/
theorem test_ks_init_size :
    let s := { idle with operands := { idle.operands with keyLen := 17 } }
    (nextOf s (exec .ksInit s)).statusWord = 0x00000204 := by decide +kernel
/-- T-KS-12. -/
theorem test_ks_step : let t := completed .ksStep (completed .ksInit idle)
    vget t.rk 4 = ⟨0xa0, 0xfa, 0xfe, 0x17⟩ ∧ t.kcount = 5 := by decide +kernel
/-- T-KS-9: no schedule started. -/
theorem test_ks_step_sequence : (nextOf idle (exec .ksStep idle)).statusWord = 0x00000304 := by decide +kernel
/-- T-KS-1: Words 4, 5 and 43. -/
theorem test_ks_expand : let t := completed .ksExpand idle
    vget t.rk 4 = ⟨0xa0, 0xfa, 0xfe, 0x17⟩ ∧ vget t.rk 5 = ⟨0x88, 0x54, 0x2c, 0xb1⟩ ∧
      vget t.rk 43 = ⟨0xb6, 0x63, 0x0c, 0xa6⟩ ∧ t.statusWord = 0x0000000a := by decide +kernel
/-- T-KS-5: the source's 11-byte key. -/
theorem test_ks_expand_size :
    let s := { idle with operands := { idle.operands with keyLen := 11 } }
    (nextOf s (exec .ksExpand s)).statusWord = 0x00000204 := by decide +kernel
/-- T-MD-1. -/
theorem test_md_init : let t := completed .mdInit idle
    t.statusWord = 0x00000012 ∧ t.valueAt 0x060 4 = 0x01234567 ∧ t.valueAt 0x06C 4 = 0x76543210 := by decide +kernel
/-- T-MD-13. -/
theorem test_md_loaddig :
    let din : Window 16 :=
      #v[0xa4, 0x48, 0x01, 0x7a, 0xaf, 0x21, 0xd8, 0x52, 0x5f, 0xc1, 0x0a, 0xe8, 0x7a, 0xa6, 0x72, 0x9d]
    (completed .mdLoaddig { idle with operands := { idle.operands with din := din } }).md.h =
      ⟨0x7A0148A4, 0x52D821AF, 0xE80AC15F, 0x9D72A67A⟩ := by decide +kernel
/-- T-MD-12 and T-MD-10, with 128 and 100 in ARG. -/
theorem test_md_setcnt :
    let s (v : Word64) := { started 0 with operands := { idle.operands with arg := v } }
    (completed .mdSetcnt (s 128)).md.count = 128 ∧
      (nextOf (s 100) (exec .mdSetcnt (s 100))).statusWord = 0x00000614 := by decide +kernel
/-- T-MD-11: a partial block is buffered. -/
theorem test_md_setcnt_partial :
    let s := { started 3 with operands := { idle.operands with arg := 64 } }
    (nextOf s (exec .mdSetcnt s)).statusWord = 0x00000614 := by decide +kernel
/-- T-MD-4. -/
theorem test_md_update : let t := completed (.mdUpdate 3) (started 0)
    t.md.count = 3 ∧ t.md.h = md4IV ∧ vget t.md.buf 2 = 0x63 := by decide +kernel
/-- T-MD-8 and T-MD-9. -/
theorem test_md_update_checks : (nextOf idle (exec (.mdUpdate 65) (started 0))).statusWord = 0x00000514 ∧
    (nextOf idle (exec (.mdUpdate 65) idle)).statusWord = 0x00000904 := by decide +kernel
/-- T-MD-2: the digest of the empty message. -/
theorem test_md_final : let t := completed .mdFinal (started 0)
    ser t.md.h = #v[0x31, 0xd6, 0xcf, 0xe0, 0xd1, 0x6a, 0xe9, 0x31, 0xb7, 0x3c, 0x59, 0xd7, 0xe0, 0xc0, 0x89, 0xc0] ∧
      t.md.count = 64 := by decide +kernel
/-- T-PAD-3. -/
theorem test_md_padgen : let t := completed .mdPadgen idle
    t.padlen = 32 ∧ t.valueAt 0x118 4 = 0x00030000 ∧ t.valueAt 0x100 1 = 0x80 := by decide +kernel
/-- T-PAD-2: the length 2^64 - 1. -/
theorem test_md_padgen_wrap :
    let t := completed .mdPadgen { idle with operands := { idle.operands with arg := 0xFFFFFFFFFFFFFFFF } }
    t.padlen = 65 ∧ t.valueAt 0x138 4 = 0x00f8ffff ∧ t.valueAt 0x140 4 = 0xff000000 := by decide +kernel

/-! ### Host accesses and errors -/

/-- T-BUS-12: a 1-byte write to CMD. -/
theorem test_cmd_byte : (stepped (facing (.write 0x003 1 0) idle)).statusWord = 0x00000804 := by decide +kernel
/-- T-BUS-8: a 2-byte read is refused and returns 0. -/
theorem test_two_byte_read : let t := stepped (facing (.read 0x004 2) idle)
    t.statusWord = 0x00000804 ∧ t.replies = [⟨0x004, 2, 0⟩] := by decide +kernel
/-- T-BUS-5: only bits 7:0 of KEY_LEN are stored. -/
theorem test_key_len : (stepped (facing (.write 0x00C 4 0x1234567F) idle)).valueAt 0x00C 4 = 0x0000007F := by
  decide +kernel
/-- P1: the key is loaded through big-endian lanes. -/
theorem test_key_lanes : let t := stepped (facing (.write 0x044 4 0x28aed2a6) State.reset)
    t.operands.key[4] = 0x28 ∧ t.operands.key[7] = 0xa6 := by decide +kernel
/-- T-BUSY-1, accesses 4 and 6: a guarded write while BUSY. -/
theorem test_busy_write : let t := stepped (facing (.write 0x040 4 0) (loaded .ksExpand idle))
    t.statusWord = 0x00000705 ∧ t.operands.key = testKey := by decide +kernel
/-- T-BUS-16: CLRERR by a 1-byte write. -/
theorem test_clear_error :
    (stepped (facing (.write 0x007 1 0x04) { idle with error := some .illegalCmd })).statusWord = 0 := by decide +kernel
/-- T-BUS-13: the first error is kept. -/
theorem test_first_error : (stepped (facing (.read 0x002 4) { idle with error := some .illegalCmd })).statusWord =
    0x00000104 := by decide +kernel
/-- T-IRQ-4 and T-IRQ-1. -/
theorem test_irq : ({ idle with ieFlag := true, error := some .illegalCmd } : State).irq = true ∧
    ({ idle with doneFlag := true } : State).irq = false := by decide +kernel

/-! ### Witnesses of the hypotheses: encoding, steps and issue -/

theorem test_witness_decode_of_encode :
    (Instr.boRcon 255).wellFormed = true ∧ (Instr.mdUpdate 0).wellFormed = true ∧ Instr.mdPadgen.wellFormed = true := by
  decide
theorem test_witness_encode_of_decode : decodeWord 0x230000FF = .ok (.mdUpdate 255) := by decide
theorem test_witness_decode_total :
    ((0x00000100 : Word32).toNat / 2 ^ 8 % 2 ^ 16 ≠ 0) ∧
    (∀ i, ((0x26000000 : Word32).toNat / 2 ^ 24, i) ∉ opcodeTable 0) ∧
    ((0x12000001 : Word32).toNat / 2 ^ 24 = 0x12 ∧ (0x12000001 : Word32).toNat % 2 ^ 8 ≠ 0) ∧
    ((0x040000FF : Word32).toNat / 2 ^ 24, Instr.boRcon 255) ∈ opcodeTable 255 ∧
    decodeWord 0x26000000 = .error .unassignedOpcode ∧ idle.error = none := by
  refine ⟨by decide, ?_, by decide, by decide, by decide, rfl⟩
  intro i
  simp [opcodeTable]
theorem test_witness_step_runs :
    ((facing (.write 0x000 4 0x0400000A) idle).Presents (.write 0x000 4 0x0400000A) [] ∧ idle.pending = none ∧
      decodeWord 0x0400000A = .ok (.boRcon 10)) ∧
    (({ loaded .nop idle with schedule := [.engine, .engine] } : State).EngineTurn [.engine] ∧
      (loaded .nop idle).pending = some ⟨.nop, idle.operands⟩) :=
  ⟨⟨⟨rfl, rfl⟩, rfl, by decide⟩, .inl rfl, rfl⟩
theorem test_witness_placed : decodeTableWord 32 0x04000001 = some (.boRcon 1) := by decide
theorem test_witness_issue :
    ((facing (.write 0x000 4 0) (loaded .nop idle)).Presents (.write 0x000 4 0) [] ∧
      (loaded .nop idle).pending ≠ none) ∧
    ((facing (.write 0x000 4 0) { idle with error := some .badRound }).Presents (.write 0x000 4 0) [] ∧
      ({ idle with error := some .badRound } : State).error ≠ none) ∧
    ((facing (.write 0x000 4 0x26000000) idle).Presents (.write 0x000 4 0x26000000) [] ∧
      decodeWord 0x26000000 = .error .unassignedOpcode) ∧
    ((facing (.write 0x000 4 0x04000000) idle).Presents (.write 0x000 4 0x04000000) [] ∧
      decodeWord 0x04000000 = .ok (.boRcon 0) ∧ firstFailing (.boRcon 0) idle.operands idle = some .badRound) ∧
    (({ idle with schedule := [.host (.write 0x000 4 0x12000000), .engine] } : State).Presents
        (.write 0x000 4 0x12000000) [.engine] ∧
      decodeWord 0x12000000 = .ok .ksExpand ∧ firstFailing .ksExpand idle.operands idle = none) :=
  ⟨⟨⟨rfl, rfl⟩, nofun⟩, ⟨⟨rfl, rfl⟩, nofun⟩, ⟨⟨rfl, rfl⟩, by decide⟩, ⟨⟨rfl, rfl⟩, by decide, by decide +kernel⟩,
    ⟨rfl, rfl⟩, by decide, by decide +kernel⟩
theorem test_witness_engine :
    (idle.EngineTurn [] ∧ idle.pending = none) ∧
    (({ loaded .ksExpand idle with schedule := [.engine] } : State).EngineTurn [] ∧
      (loaded .ksExpand idle).pending = some ⟨.ksExpand, idle.operands⟩ ∧
      firstFailing .ksExpand idle.operands (loaded .ksExpand idle) = none) :=
  ⟨⟨.inr ⟨rfl, rfl⟩, rfl⟩, .inl rfl, rfl, by decide +kernel⟩
theorem test_witness_unaccepted : (loaded .mdFinal idle).pending = some ⟨.mdFinal, idle.operands⟩ ∧
    firstFailing .mdFinal idle.operands (loaded .mdFinal idle) ≠ none := ⟨rfl, by decide +kernel⟩

/-! ### Witnesses of the hypotheses: the commands -/

/-- The commands whose completion has no hypothesis but that they are pending. -/
theorem test_witness_pending (i : Instr) : (loaded i idle).pending = some ⟨i, idle.operands⟩ := rfl
theorem test_witness_bo_rcon :
    (1 ≤ 1 ∧ ([0x01, 0x02, 0x04, 0x08, 0x10, 0x20, 0x40, 0x80, 0x1B, 0x36] : List Byte)[1 - 1]? = some 0x01) ∧
    (1 ≤ 10 ∧ ([0x01, 0x02, 0x04, 0x08, 0x10, 0x20, 0x40, 0x80, 0x1B, 0x36] : List Byte)[10 - 1]? = some 0x36) := by
  decide
theorem test_witness_key_size : idle.operands.keyLen = 16 := rfl
theorem test_witness_ks_step :
    let s (n : BitVec 6) : State := loaded .ksStep { idle with kcount := n }
    ((s 4).pending = some ⟨.ksStep, idle.operands⟩ ∧ (s 4).kcount.toNat = 4) ∧
    ((s 43).pending = some ⟨.ksStep, idle.operands⟩ ∧ (s 43).kcount.toNat = 43) := ⟨⟨rfl, rfl⟩, rfl, rfl⟩
theorem test_witness_md_setcnt :
    let s : State := { started 64 with operands := { idle.operands with arg := 0xFFFFFFFFFFFFFFC0 } }
    (loaded .mdSetcnt s).pending = some ⟨.mdSetcnt, s.operands⟩ ∧ s.mdvFlag = true ∧ s.md.count.toNat % 64 = 0 ∧
      s.operands.arg.toNat % 64 = 0 := by
  refine ⟨rfl, rfl, ?_, ?_⟩ <;> decide +kernel
theorem test_witness_md_update : (started 0).mdvFlag = true ∧
    (loaded (.mdUpdate 0) (started 0)).pending = some ⟨.mdUpdate 0, idle.operands⟩ ∧ 0 ≤ 64 ∧
    (loaded (.mdUpdate 64) (started 63)).pending = some ⟨.mdUpdate 64, idle.operands⟩ ∧ 64 ≤ 64 :=
  ⟨rfl, rfl, by decide, rfl, by decide⟩
theorem test_witness_boundary :
    let m : MdState := (started 3).md
    let xs (n : Nat) : List Byte := List.replicate n 0x61
    ((xs 60).length ≤ 64 ∧ m.count.toNat % 64 + (xs 60).length < 64) ∧
    ((xs 61).length ≤ 64 ∧ 64 ≤ m.count.toNat % 64 + (xs 61).length) := by decide +kernel
theorem test_witness_whole_block : let s := loaded (.mdUpdate 64) (started 128)
    s.pending = some ⟨.mdUpdate 64, idle.operands⟩ ∧ s.mdvFlag = true ∧ s.md.count.toNat % 64 = 0 :=
  ⟨rfl, rfl, rfl⟩
theorem test_witness_md_final : let s := loaded .mdFinal (started 3)
    s.pending = some ⟨.mdFinal, idle.operands⟩ ∧ s.mdvFlag = true := ⟨rfl, rfl⟩
/-- Both clauses of the padding length, and the ends of the zero fill for `l = 0`. -/
theorem test_witness_padding : (55 : Word64).toNat % 64 < 56 ∧ 56 ≤ (56 : Word64).toNat % 64 ∧
    (1 + 8 < (padBytes 0).length ∧ 55 + 8 < (padBytes 0).length) ∧ 0 < 8 ∧ 7 < 8 := by decide +kernel
/-- The largest index of each bounded clause: groups, bytes of a group, OPA to RES, KEY and DIN, MSG, PAD, RK. -/
theorem test_witness_bounds : 3 < 4 ∧ 15 < 16 ∧ 63 < 64 ∧ 127 < 128 ∧ 43 < 44 := by decide
theorem test_witness_stale_buffer :
    let m : MdState := (started 1).md
    let m' : MdState := { m with buf := vset m.buf 1 0xFF }
    m.h = m'.h ∧ m.count = m'.count ∧ (∀ k, k < m.count.toNat % 64 → vget m.buf k = vget m'.buf k) ∧
      m.buf ≠ m'.buf := by
  refine ⟨rfl, rfl, ?_, by decide +kernel⟩
  intro k hk
  obtain rfl : k = 0 := by
    have : k < 1 := hk
    omega
  decide +kernel
theorem test_witness_sbox : (0x53 : Byte) ≠ 0 := by decide
theorem test_witness_digest : idle.pending = none ∧ idle.error = none ∧
    ∀ c ∈ [(⟨abcMsg, 3⟩ : Chunk), ⟨abcMsg, 64⟩, ⟨abcMsg, 0⟩], c.n ≤ 64 := ⟨rfl, rfl, by decide⟩
theorem test_witness_forged :
    let K : List Byte := [0x61, 0x62, 0x63]
    let s : State := { idle with
      operands := { idle.operands with din := md4Digest K, arg := BitVec.ofNat 64 (padded K).length } }
    s.pending = none ∧ s.error = none ∧ s.operands.din = md4Digest K ∧
      s.operands.arg = BitVec.ofNat 64 (padded K).length ∧ (∀ c ∈ [(⟨abcMsg, 12⟩ : Chunk)], c.n ≤ 64) :=
  ⟨rfl, rfl, rfl, rfl, by decide⟩
theorem test_witness_expand : idle.pending = none ∧ idle.error = none ∧ idle.operands.keyLen = 16 := ⟨rfl, rfl, rfl⟩

/-! ### Witnesses of the hypotheses: host accesses -/

/-- Every access can be the next one, in an idle state and in a busy one. -/
theorem test_witness_presents (a : Access) : (facing a idle).Presents a [] ∧
    (facing a (loaded .nop idle)).Presents a [] ∧ (facing a idle).pending = none ∧
    (facing a (loaded .nop idle)).pending ≠ none := ⟨⟨rfl, rfl⟩, ⟨rfl, rfl⟩, rfl, nofun⟩
theorem test_witness_bad_access : (2 ≠ 1 ∧ 2 ≠ 4) ∧ (4 = 4 ∧ (0x002 : Offset).toNat % 4 ≠ 0) ∧
    (Unmapped 0x028 ∧ Unmapped 0x2B0 ∧ Unmapped 0x3FF) ∧ (ReadOnly 0x010 ∧ ReadOnly 0x2AF) ∧
    (0x003 : Offset).toNat < 4 := by decide
theorem test_witness_guarded : (LegalSize 0x00C 4 ∧ GuardedStorage 0x00C) ∧ (LegalSize 0x0BF 1 ∧ GuardedStorage 0x0BF) ∧
    LegalSize 0x000 4 ∧ (LegalSize 0x004 4 ∧ StatusOrCtrl 0x004) ∧ (LegalSize 0x00B 1 ∧ StatusOrCtrl 0x00B) ∧
    (LegalSize 0x2AF 1 ∧ ¬ Unmapped 0x2AF) := by decide
theorem test_witness_reads_busy : (LegalSize 0x010 4 ∧ ReadOnly 0x010) ∧ (LegalSize 0x2AF 1 ∧ ReadOnly 0x2AF) ∧
    (LegalSize 0x003 1 ∧ (0x003 : Offset).toNat < 4) ∧ (LegalSize 0x00F 1 ∧ GuardedStorage 0x00F) ∧
    (LegalSize 0x008 4 ∧ StatusOrCtrl 0x008) := by decide
/-- An idle state with four round-key Words computed, about to be read. -/
def reading (off : Offset) (n : Nat) : State := facing (.read off n) { idle with kcount := 4 }

/-- Outside RK, and at the last byte of the last Word computed. -/
theorem test_witness_reads_idle :
    ((reading 0x000 4).Presents (.read 0x000 4) [] ∧ LegalSize 0x000 4 ∧ ¬ Unmapped 0x000 ∧
      ¬ 0x200 ≤ (0x000 : Offset).toNat) ∧
    ((reading 0x20F 1).Presents (.read 0x20F 1) [] ∧ (reading 0x20F 1).pending = none ∧ LegalSize 0x20F 1 ∧
      ¬ Unmapped 0x20F ∧ ((0x20F : Offset).toNat - 0x200) / 4 < (reading 0x20F 1).kcount.toNat) :=
  ⟨⟨⟨rfl, rfl⟩, by decide⟩, ⟨rfl, rfl⟩, rfl, by decide, by decide, by decide +kernel⟩
/-- At the first byte of the first Word not computed. -/
theorem test_witness_unfinished : (reading 0x210 4).Presents (.read 0x210 4) [] ∧ (reading 0x210 4).pending = none ∧
    LegalSize 0x210 4 ∧ 0x200 ≤ (0x210 : Offset).toNat ∧ (0x210 : Offset).toNat ≤ 0x2AF ∧
    (reading 0x210 4).kcount.toNat ≤ ((0x210 : Offset).toNat - 0x200) / 4 :=
  ⟨⟨rfl, rfl⟩, rfl, by decide, by decide, by decide, by decide +kernel⟩
/-- The first Word, with no schedule started. -/
theorem test_witness_unstarted : (facing (.read 0x200 1) idle).Presents (.read 0x200 1) [] ∧ idle.pending = none ∧
    LegalSize 0x200 1 ∧ 0x200 ≤ (0x200 : Offset).toNat ∧ (0x200 : Offset).toNat ≤ 0x2AF ∧
    idle.kcount.toNat ≤ ((0x200 : Offset).toNat - 0x200) / 4 :=
  ⟨⟨rfl, rfl⟩, rfl, by decide, by decide, by decide, by decide +kernel⟩
/-- No error, and the first and the last of the nine. -/
theorem test_witness_error_codes : idle.error = none ∧
    ({ idle with error := some .illegalCmd } : State).error = some .illegalCmd ∧
    ({ idle with error := some .mdSequence } : State).error = some .mdSequence := ⟨rfl, rfl, rfl⟩
theorem test_witness_operand_write : (LegalSize 0x020 4 ∧ OperandStorage 0x020) ∧
    (LegalSize 0x0BF 1 ∧ OperandStorage 0x0BF) ∧ (0x01F : Offset).toNat < (0x020 : Offset).toNat ∧
    (0x020 : Offset).toNat + 4 ≤ (0x024 : Offset).toNat := by decide
theorem test_witness_control : LegalSize 0x004 4 ∧ LegalSize 0x007 1 ∧ LegalSize 0x008 4 ∧ LegalSize 0x00B 1 ∧
    LegalSize 0x00C 4 ∧ LegalSize 0x00F 1 ∧ (0x004 : Offset).toNat ∈ [0x004, 0x005, 0x006, 0x008, 0x009, 0x00A] ∧
    (0x00E : Offset).toNat ∈ [0x00C, 0x00D, 0x00E] := by decide
theorem test_witness_clear : (0x04 : Word32).getLsbD 2 = true ∧ (0x04 : Word32).getLsbD 1 = false ∧
    (facing (.write 0x004 4 0x04) idle).Presents (.write 0x004 4 0x04) [] ∧
    (facing (.write 0x007 1 0x04) idle).Presents (.write 0x007 1 0x04) [] := ⟨rfl, rfl, ⟨rfl, rfl⟩, rfl, rfl⟩

/-! ### Witnesses of the hypotheses: reset and the whole machine -/

theorem test_witness_reset :
    ({ loaded .ksExpand idle with schedule := [.resetInput true] } : State).schedule = [.resetInput true] ∧
    ({ State.reset with inReset := true, schedule := [.resetInput false] } : State).inReset = true := ⟨rfl, rfl⟩
theorem test_witness_in_reset :
    (facing (.read 0x004 4) { State.reset with inReset := true }).schedule = [.host (.read 0x004 4)] ∧
    (facing (.read 0x004 4) { State.reset with inReset := true }).inReset = true := ⟨rfl, rfl⟩

/-- A legal state with an accepted KS_EXPAND, about to be completed. -/
def expanding : State := { loaded .ksExpand idle with schedule := [.engine] }

/-- A legal state that is not idle and does not stop, and its step. -/
theorem test_witness_invariant : expanding.Inv ∧ expanding.HostKeepsOut ∧ step expanding = .next (stepped expanding) := by
  refine ⟨?_, (fun h => nomatch h), rfl⟩
  refine ⟨.inl rfl, .inl rfl, ?_, ?_, fun _ => rfl, fun h => (nomatch h), fun _ => rfl, ?_⟩
  · intro p h
    cases h
    rfl
  · intro p h
    cases h
    decide +kernel
  · intro i h4 h
    have : i < 0 := h
    omega
theorem test_witness_host_while_pending (a : Access) : (facing a expanding).Presents a [] ∧
    (facing a expanding).pending ≠ none := ⟨⟨rfl, rfl⟩, nofun⟩
/-- A step that changes an output of the engines; it is also the completion that ends BUSY. -/
theorem test_witness_outputs : step expanding = .next (stepped expanding) ∧
    (∀ b rest, expanding.schedule ≠ .resetInput b :: rest) ∧ (stepped expanding).kcount ≠ expanding.kcount ∧
    expanding.pending = some ⟨.ksExpand, idle.operands⟩ :=
  ⟨rfl, nofun, by decide +kernel, rfl⟩
theorem test_witness_outputs_mdv : let s : State := loaded .mdInit (started 3)
    step s = .next (stepped s) ∧ (∀ b rest, s.schedule ≠ .resetInput b :: rest) ∧ s.mdvFlag = true :=
  ⟨rfl, nofun, rfl⟩
theorem test_witness_first_error :
    let s : State := facing (.read 0x002 4) { idle with error := some .illegalCmd }
    step s = .next (stepped s) ∧ s.error = some .illegalCmd := ⟨rfl, rfl⟩
theorem test_witness_acceptance :
    let s : State := facing (.write 0x000 4 0x12000000) idle
    step s = .next (stepped s) ∧ s.pending = none ∧ (stepped s).pending = some ⟨.ksExpand, idle.operands⟩ :=
  ⟨rfl, rfl, by decide +kernel⟩

end Sys2Proof.Tests
end

section
/-! SUPPORT. The outcome of a host access by the answer of the access checks (20_memory R66): a refused write, a stored
write, a read that is carried out, and the value a specified read returns. -/

namespace Sys2Proof.Machine

/-- BUSY is the presence of PENDING (R42). -/
theorem State.busy_of_pending {s : State} (h : s.pending ≠ none) : s.busy = true :=
  Option.isSome_iff_ne_none.2 h

/-- A refused write records its error and changes nothing else (R66, R203). -/
theorem step_write_refused {s : State} {off : Offset} {n : Nat} {v : Word32} {rest : List Move} {e : ErrorCode}
    (h : s.Presents (.write off n v) rest) (hr : resolve true off n s.busy = .error e) :
    step s = .next { s with schedule := rest, error := some (s.error.getD e) } := by
  rw [step_write h]
  simp [busWrite, hr, State.raise_eq]

/-- A write other than to CMD that passes the checks stores its bytes (R69). -/
theorem step_write_stored {s : State} {off : Offset} {n : Nat} {v : Word32} {rest : List Move} {p : Place} {i : Nat}
    (h : s.Presents (.write off n v) rest) (hr : resolve true off n s.busy = .ok (p, i)) (hp : p ≠ .cmd) :
    step s = .next (({ s with schedule := rest } : State).writePlace p i n v) := by
  rw [step_write h]
  rcases busWrite_cases off n v { s with schedule := rest } with ⟨e, he, -⟩ | ⟨j, hc, -⟩ | ⟨q, j, hq, -, hw⟩
  · cases hr.symm.trans he
  · cases hr.symm.trans hc
    exact absurd rfl hp
  · cases hr.symm.trans hq
    exact hw

/-- A write to STATUS or CTRL changes DONE, IE and the error record at most, and the error record it only clears
(R25, R26). -/
theorem writePlace_statusOrCtrl {p : Place} (hp : p = .status ∨ p = .ctrl) (i n : Nat) (v : Word32) (s : State) :
    ∃ d e ie, s.writePlace p i n v = { s with doneFlag := d, error := e, ieFlag := ie } ∧
      (e = none ∨ e = s.error) := by
  have shape := writePlace_shape p i n v s
  generalize s.writePlace p i n v = t at shape
  have hframe : t = { s with doneFlag := t.doneFlag, error := t.error, ieFlag := t.ieFlag } :=
    shape.rest.trans (by rw [shape.operands_eq hp])
  exact ⟨_, _, _, hframe, or_iff_not_imp_left.2 shape.error_cleared⟩

/-- A legal read of a mapped offset records no error and leaves the block as it is, whatever BUSY (R69, R70, R71). -/
theorem step_read_mapped {s : State} {off : Offset} {n : Nat} {rest : List Move} (hl : LegalSize off n)
    (hm : ¬ Unmapped off) (h : s.Presents (.read off n) rest) :
    ∃ (x : Word32) (d : Nat),
      step s = .next { s with schedule := rest, replies := ⟨off, n, x⟩ :: s.replies, draws := d } := by
  rw [step_read h]
  obtain ⟨r, -, hr⟩ := resolve_read hl hm
  rcases busRead_cases off n { s with schedule := rest } with ⟨e, he, -⟩ | ⟨p, i, -, -, hb⟩ | ⟨p, i, v, -, -, hb⟩
  · cases hr.symm.trans he
  · exact ⟨_, s.draws, congrArg _ hb⟩
  · exact ⟨v, s.draws + 1, congrArg _ hb⟩

@[simp] theorem placeByte_withSchedule (p : Place) (i : Nat) (s : State) (rest : List Move) :
    placeByte p i { s with schedule := rest } = placeByte p i s := by
  cases p <;> rfl

@[simp] theorem placeValue_withSchedule (p : Place) (i n : Nat) (s : State) (rest : List Move) :
    placeValue p i n { s with schedule := rest } = placeValue p i n s := by
  simp [placeValue]

/-- A bus word as a number: its first byte is the most significant (R62). -/
theorem laneWord_toNat (b0 b1 b2 b3 : Byte) :
    (laneWord b0 b1 b2 b3).toNat =
      b0.toNat * 2 ^ 24 + b1.toNat * 2 ^ 16 + b2.toNat * 2 ^ 8 + b3.toNat := by
  have append_toNat {m : Nat} (x : BitVec m) (b : Byte) : (x ++ b).toNat = x.toNat * 2 ^ 8 + b.toNat := by
    rw [BitVec.toNat_append, ← Nat.shiftLeft_add_eq_or_of_lt b.isLt, Nat.shiftLeft_eq]
  simp only [laneWord, append_toNat]
  omega

/-- The value a read returns, where it is specified, is that of the bytes at the access's own offset (R62, R63). -/
theorem placeValue_toNat {off : Offset} {n : Nat} {r : Region} (hl : LegalSize off n) (hr : regionAt off = some r)
    (s : State) : (placeValue r.place (off.toNat - r.base) n s).toNat = s.valueAt off n := by
  rcases hl with rfl | ⟨rfl, ha⟩
  · have hlt : (placeByte r.place (off.toNat - r.base) s).toNat < 2 ^ 32 := by omega
    simpa [placeValue, State.valueAt, State.byteAt, hr] using hlt
  · have lane : ∀ k < 4, s.byteAt (off + BitVec.ofNat 10 k) = some (placeByte r.place (off.toNat - r.base + k) s) := by
      intro k hk
      obtain ⟨hreg, hidx⟩ := regionAt_lanes off ha r hr k hk
      rw [State.byteAt, hreg, Option.map_some, hidx]
    rw [placeValue, if_neg (by decide), laneWord_toNat, State.valueAt, if_neg (by decide)]
    simp only [lane 0 (by decide), lane 1 (by decide), lane 2 (by decide), lane 3 (by decide), Option.getD_some,
      Nat.add_zero]

/-- A read of specified bytes returns their value and has no other effect (R62, R63, R69). -/
theorem step_read_specified {s : State} {off : Offset} {n : Nat} {rest : List Move} {r : Region}
    (hl : LegalSize off n) (hr : regionAt off = some r) (hu : readUnspecified r.place (off.toNat - r.base) s = false)
    (h : s.Presents (.read off n) rest) :
    ∃ x : Word32, x.toNat = s.valueAt off n ∧
      step s = .next { s with schedule := rest, replies := ⟨off, n, x⟩ :: s.replies } := by
  refine ⟨_, placeValue_toNat hl hr s, ?_⟩
  have hres : resolve false off n s.busy = .ok (r.place, off.toNat - r.base) := by
    rw [resolve_legal hl, hr]
    simp
  have hu' : readUnspecified r.place (off.toNat - r.base) { s with schedule := rest } = false := hu
  rw [step_read h]
  simp [busRead, hres, hu', State.reply]

/-- Reads outside output state are specified, whatever BUSY (R43, R71). -/
theorem readUnspecified_of_not_isOutput {p : Place} (h : p.isOutput = false) (i : Nat) (s : State) :
    readUnspecified p i s = false := by
  have hrk : p ≠ .rk := fun hp => by simp [hp, Place.isOutput] at h
  simp [readUnspecified, h, hrk]

end Sys2Proof.Machine
end

section
/-! Host accesses to read-only targets and while BUSY = 1 (20_memory R67, R70, R71). -/

namespace Sys2Proof.Machine

/-- Settles O37: the access checks refuse every write to a read-only target, whatever its size and whatever BUSY. -/
theorem readOnlyWritesAreRefused : Obligations.ReadOnlyWritesAreRefused :=
  fun _ _ _ _ _ hro h => step_write_refused h (resolve_readOnly hro)

/-- Settles O38: the checks refuse the guarded writes, CMD's among them, and pass the writes to STATUS and CTRL and
the reads. -/
theorem guardedWritesWhileBusy : Obligations.GuardedWritesWhileBusy := by
  intro s off n v rest hp hl
  have hb := State.busy_of_pending hp
  refine ⟨fun hg h => step_write_refused h ?_, fun hk h => ?_, fun hm h => step_read_mapped hl hm h⟩
  · rw [hb]
    rcases hg with hg | ⟨rfl, rfl⟩
    · exact resolve_guarded_busy hl hg
    · exact resolve_cmd_word true
  · obtain ⟨r, -, hc, hr⟩ := resolve_write (busy := s.busy) hl (.inl hk)
    have hsc : r.place = .status ∨ r.place = .ctrl := resolve_write_busy (hb ▸ hr)
    rw [step_write_stored h hr hc]
    obtain ⟨d, e, ie, hw, he⟩ := writePlace_statusOrCtrl hsc (off.toNat - r.base) n v { s with schedule := rest }
    exact ⟨d, e, ie, congrArg _ hw, he⟩

/-- Settles O39: output state is exactly the read-only part of the map, so every other place is read as it stands. -/
theorem readsWhileBusy : Obligations.ReadsWhileBusy := by
  intro s off n rest _ hl h
  refine ⟨fun hro => step_read_mapped hl (by omega) h, fun hk => ?_⟩
  obtain ⟨r, hr, -⟩ := resolve_read (busy := s.busy) hl (by omega)
  have hout : r.place.isOutput = false := by
    rw [← Bool.not_eq_true, regionAt_isOutput_iff off r hr]
    omega
  exact step_read_specified hl hr (readUnspecified_of_not_isOutput hout _ s) h

end Sys2Proof.Machine
end

section
/-! SUPPORT. The decoder by numbers (30_encoding R90 to R96): the fields of a word, the opcode map as the table of R94,
and exactly which words decode to a command. -/

namespace Sys2Proof

theorem opField_toNat (w : Word32) : (opField w).toNat = w.toNat / 2 ^ 24 := by
  simp only [opField, BitVec.extractLsb'_toNat, Nat.shiftRight_eq_div_pow]
  omega

theorem rsvField_toNat (w : Word32) : (rsvField w).toNat = w.toNat / 2 ^ 8 % 2 ^ 16 := by
  simp only [rsvField, BitVec.extractLsb'_toNat, Nat.shiftRight_eq_div_pow]

theorem immField_toNat (w : Word32) : (immField w).toNat = w.toNat % 2 ^ 8 := by
  simp only [immField, BitVec.extractLsb'_toNat, Nat.shiftRight_zero]

/-- The decoder's opcode map is the table of R94, the opcodes outside it included. -/
theorem opcodeRow_eq_some_iff (op : Byte) (n : Nat) (i : Instr) :
    opcodeRow op n = some i ↔ (op.toNat, i) ∈ opcodeTable n := by
  unfold opcodeRow
  split
  case h_15 => simp_all [opcodeTable]
  all_goals simp [opcodeTable, *, @eq_comm Instr]

/-- The rows that use IMM8 are those of opcodes 0x04 and 0x23 (R90). -/
theorem opcodeTable_takesImmediate {op n : Nat} {i : Instr} (h : (op, i) ∈ opcodeTable n) :
    i.takesImmediate = true ↔ op = 0x04 ∨ op = 0x23 := by
  have rows : ∀ row ∈ opcodeTable n, row.2.takesImmediate = true ↔ row.1 = 0x04 ∨ row.1 = 0x23 := by
    simp [opcodeTable, Instr.takesImmediate]
  exact rows (op, i) h

/-- A word decodes to a command exactly when the three tests of R96 pass: RSV, then the row, then IMM8. -/
theorem decodeWord_eq_ok_iff_tests (w : Word32) (i : Instr) :
    decodeWord w = .ok i ↔
      rsvField w = 0 ∧ opcodeRow (opField w) (immField w).toNat = some i ∧
        ¬ (immField w ≠ 0 ∧ i.takesImmediate = false) := by
  unfold decodeWord
  split_ifs with hrsv
  · exact iff_of_false nofun fun h => hrsv h.1
  · rw [and_iff_right (not_not.1 hrsv)]
    cases opcodeRow (opField w) (immField w).toNat with
    | none => simp only [reduceCtorEq, false_and]
    | some j =>
      simp only [Option.some.injEq]
      split_ifs with himm
      · refine iff_of_false nofun ?_
        rintro ⟨rfl, himm'⟩
        exact himm' himm
      · rw [Except.ok.injEq]
        exact ⟨fun h => ⟨h, h ▸ himm⟩, fun h => h.1⟩

/-- The legal words of R96, each with its command, on the three numbers OP, RSV and IMM8. -/
theorem decodeWord_eq_ok_iff (w : Word32) (i : Instr) :
    decodeWord w = .ok i ↔
      w.toNat / 2 ^ 8 % 2 ^ 16 = 0 ∧ (w.toNat / 2 ^ 24, i) ∈ opcodeTable (w.toNat % 2 ^ 8) ∧
        (w.toNat / 2 ^ 24 = 0x04 ∨ w.toNat / 2 ^ 24 = 0x23 ∨ w.toNat % 2 ^ 8 = 0) := by
  have hzero {m : Nat} (x : BitVec m) : x = 0 ↔ x.toNat = 0 := BitVec.toNat_inj.symm
  rw [decodeWord_eq_ok_iff_tests, opcodeRow_eq_some_iff, ne_eq, hzero, hzero, opField_toNat, rsvField_toNat,
    immField_toNat]
  refine and_congr_right fun _ => and_congr_right fun hrow => ?_
  rw [← or_assoc, ← opcodeTable_takesImmediate hrow, not_and_or, not_not, Bool.not_eq_false, or_comm]

/-- Decoding is total: a word that is no command is an error. -/
theorem decodeWord_error_of_ne_ok {w : Word32} (h : ∀ i, decodeWord w ≠ .ok i) : ∃ e, decodeWord w = .error e := by
  cases hd : decodeWord w with
  | error e => exact ⟨e, rfl⟩
  | ok i => exact absurd hd (h i)

end Sys2Proof

namespace Sys2Proof.Machine

/-- An illegal word, issued with no error recorded, is rejected with ILLEGAL_CMD (R96, R201). -/
theorem issue_illegal {w : Word32} {e : DecodeError} {s : State} (hd : decodeWord w = .error e)
    (he : s.error = none) : issue w s = .next { s with doneFlag := false, error := some .illegalCmd } := by
  simp only [issue, hd, beginIssue, State.errFlag, he, Option.isSome_none]
  exact congrArg Host.Outcome.next (State.raise_of_none s.clearDone _ he)

end Sys2Proof.Machine
end

section
/-! Total and exact decoding (30_encoding R96). -/

namespace Sys2Proof.Machine

/-- Settles O3: the legal words are exactly those of `decodeWord_eq_ok_iff`, so a word that fails one of its three
conditions is an error, and issuing an error raises ILLEGAL_CMD. -/
theorem decodeIsTotalAndExact : Obligations.DecodeIsTotalAndExact := by
  intro w op rsv imm
  refine ⟨fun hrsv => ?_, fun hrow => ?_, fun h4 h23 himm => ?_, fun i hrsv hrow himm => ?_,
    fun e hd s he => issue_illegal hd he⟩
  · refine decodeWord_error_of_ne_ok fun i hd => ?_
    obtain ⟨hrsv0, -, -⟩ := (decodeWord_eq_ok_iff w i).1 hd
    exact hrsv hrsv0
  · refine decodeWord_error_of_ne_ok fun i hd => ?_
    obtain ⟨-, hmem, -⟩ := (decodeWord_eq_ok_iff w i).1 hd
    exact hrow i hmem
  · refine decodeWord_error_of_ne_ok fun i hd => ?_
    obtain ⟨-, -, himm'⟩ := (decodeWord_eq_ok_iff w i).1 hd
    exact himm'.elim h4 (·.elim h23 himm)
  · exact (decodeWord_eq_ok_iff w i).2 ⟨hrsv, hrow, himm⟩

end Sys2Proof.Machine
end

section
/-! SUPPORT. The padding of R163 byte by byte: the bounds of its length, and what stands at each index. -/

namespace Sys2Proof.Machine

/-- Byte `k` of the little-endian form is the `k`-th base-256 digit. -/
theorem le64inv_getElem? (x : Word64) {k : Nat} (hk : k < 8) :
    (le64inv x)[k]? = some (BitVec.ofNat 8 (x.toNat / 2 ^ (8 * k))) := by
  have hdigit : x.extractLsb' (8 * k) 8 = BitVec.ofNat 8 (x.toNat / 2 ^ (8 * k)) := by
    rw [BitVec.extractLsb', Nat.shiftRight_eq_div_pow]
  simp [le64inv, hk, hdigit]

theorem padLength_of_lt {l : Word64} (h : l.toNat % 64 < 56) : padLength l = 64 - l.toNat % 64 := if_pos h

theorem padLength_of_ge {l : Word64} (h : 56 ≤ l.toNat % 64) : padLength l = 128 - l.toNat % 64 :=
  if_neg (Nat.not_lt.2 h)

/-- There is always room for the marker and the bit length. -/
theorem nine_le_padLength (l : Word64) : 9 ≤ padLength l := by
  rcases Nat.lt_or_ge (l.toNat % 64) 56 with h | h
  · rw [padLength_of_lt h]; omega
  · rw [padLength_of_ge h]; omega

theorem padBytes_marker (l : Word64) : (padBytes l)[0]? = some 0x80 := rfl

/-- Between the marker and the last eight bytes the padding is 0. -/
theorem padBytes_zeroFill (l : Word64) {k : Nat} (h1 : 1 ≤ k) (h : k + 8 < padLength l) :
    (padBytes l)[k]? = some 0 := by
  obtain ⟨j, rfl⟩ := Nat.exists_eq_add_of_le' h1
  have hj : j < padLength l - 9 := by omega
  rw [padBytes, List.cons_append, List.getElem?_cons_succ, List.getElem?_append_left (by simpa using hj),
    List.getElem?_replicate_of_lt hj]

/-- The last eight bytes of the padding are the bit length's. -/
theorem padBytes_bitLength (l : Word64) (k : Nat) :
    (padBytes l)[padLength l - 8 + k]? = (le64inv (8 * l))[k]? := by
  have hindex : padLength l - 8 + k = (0x80 :: List.replicate (padLength l - 9) (0 : Byte)).length + k := by
    have := nine_le_padLength l
    simp only [List.length_cons, List.length_replicate]
    omega
  rw [padBytes, hindex, List.getElem?_append_right (Nat.le_add_right _ _), Nat.add_sub_cancel_left]

end Sys2Proof.Machine
end

section
/-! The law of the padding (43_md4 R163, R164). -/

namespace Sys2Proof.Machine

/-- Settles O27: the length is `padLength`'s two cases, and each part of `padBytes` stands at its own indices. -/
theorem paddingLaw : Obligations.PaddingLaw := by
  intro l
  rw [padBytes_length]
  refine ⟨fun h => ?_, fun h => ?_, padBytes_marker l, fun k h1 h => padBytes_zeroFill l h1 h, fun k hk => ?_⟩
  · rw [padLength_of_lt h]; omega
  · rw [padLength_of_ge h]; omega
  · rw [padBytes_bitLength, le64inv_getElem? _ hk, BitVec.toNat_mul]
    rfl

end Sys2Proof.Machine
end

section
/-! SUPPORT. Issue of a command word and the engine's turn, as steps of the schedule (60_exceptions R201, 70_reset
R251). -/

namespace Sys2Proof.Machine

/-- The checks of the rules decide, whatever moves are still to come. -/
theorem commandCheck_withSchedule_eq_firstFailing (i : Instr) (o : Operands) (s : State) (rest : List Move) :
    commandCheck i o { s with schedule := rest } = firstFailing i o s := by
  rw [← commandCheck_eq_firstFailing]
  cases i <;> rfl

/-- ERR is the presence of an error record (R203). -/
theorem State.errFlag_eq_true_iff (s : State) : s.errFlag = true ↔ s.error ≠ none :=
  Option.isSome_iff_ne_none

/-- A legal word is issued as its command (R96, R201). -/
theorem issue_legal {w : Word32} {i : Instr} (hd : decodeWord w = .ok i) (s : State) : issue w s = exec i s := by
  simp [issue, hd]

/-- While ERR = 1 every command word is ignored, legal or not (R201). -/
theorem issue_ignored {w : Word32} {s : State} (hp : s.pending = none) (he : s.error ≠ none) :
    issue w s = .next s := by
  have herr : s.errFlag = true := s.errFlag_eq_true_iff.2 he
  cases hd : decodeWord w with
  | error e => simp [issue, hd, beginIssue, herr]
  | ok i => exact (issue_legal hd s).trans (exec_ignored hp he)

/-- A write to CMD that passes the access checks issues its word (R69, R201). -/
theorem step_write_issued {s : State} {off : Offset} {n : Nat} {w : Word32} {rest : List Move} {i : Nat}
    (h : s.Presents (.write off n w) rest) (hr : resolve true off n s.busy = .ok (.cmd, i)) :
    step s = issue w { s with schedule := rest } := by
  rw [step_write h]
  simp [busWrite, hr]

/-- With BUSY = 0 a 4-byte write to CMD passes the access checks (R66, R70). -/
theorem step_write_cmd {s : State} {w : Word32} {rest : List Move} (h : s.Presents (.write 0x000 4 w) rest)
    (hp : s.pending = none) : step s = issue w { s with schedule := rest } := by
  have hb : s.busy = false := by simp [State.busy, hp]
  refine step_write_issued h (i := 0) ?_
  rw [resolve_cmd_word, hb]
  rfl

/-- The engine's turn with a command pending executes that command (R251). -/
theorem step_engine_pending {s : State} {p : Pending} {rest : List Move} (h : s.EngineTurn rest)
    (hp : s.pending = some p) : step s = exec p.instr { s with schedule := rest } := by
  rw [step_engine h]
  simp [engineMove, hp]

end Sys2Proof.Machine
end

section
/-! Issue of a command and the interrupt output (60_exceptions R201, R220). -/

namespace Sys2Proof.Machine

/-- Settles O7: the access checks refuse the write while BUSY = 1; otherwise it issues the word, which ERR, the decoder
and the command's own checks decide, and the engine's next turn finds the accepted command in PENDING. -/
theorem issueOfACommand : Obligations.IssueOfACommand := by
  intro s w rest h
  refine ⟨fun hp => ?refused, fun hp he => ?ignored, fun e hp he hd => ?illegal, fun i e hp he hd hf => ?rejected,
    fun i hp he hd hf => ?accepted⟩
  case refused =>
    refine step_write_refused h ?_
    rw [resolve_cmd_word, State.busy_of_pending hp]
    rfl
  case ignored =>
    rw [step_write_cmd h hp]
    exact issue_ignored hp he
  case illegal =>
    rw [step_write_cmd h hp]
    exact issue_illegal hd he
  case rejected =>
    rw [step_write_cmd h hp, issue_legal hd]
    exact exec_rejected hp he ((commandCheck_withSchedule_eq_firstFailing ..).trans hf)
  case accepted =>
    refine ⟨_, ?_, rfl, rfl, fun later hrest => step_engine_pending (p := ⟨i, s.operands⟩) (.inl hrest) rfl⟩
    rw [step_write_cmd h hp, issue_legal hd]
    exact exec_accepted hp he ((commandCheck_withSchedule_eq_firstFailing ..).trans hf)

/-- Settles O50: R220's formula read as a proposition, with ERR the presence of an error record. -/
theorem interruptLevel : Obligations.InterruptLevel := by
  intro s
  rw [State.irq, Bool.and_eq_true, Bool.or_eq_true, State.errFlag_eq_true_iff]

end Sys2Proof.Machine
end

section
/-! SUPPORT. The control registers as numbers (10_state R25 to R29, 20_memory R62), and the step that takes a level of
the reset input (70_reset R240, R241). -/

namespace Sys2Proof.Machine

/-- The four lanes of a bus word put together again (R62). -/
theorem laneWord_laneByte (x : Word32) :
    laneWord (laneByte x 0) (laneByte x 1) (laneByte x 2) (laneByte x 3) = x := by
  apply BitVec.eq_of_toNat_eq
  simp only [laneWord_toNat, laneByte, BitVec.extractLsb'_toNat, Nat.shiftRight_eq_div_pow]
  omega

/-- A 4-byte register whose lanes are those of `x` reads as `x`. -/
theorem valueAt_of_lanes {off : Offset} {r : Region} {x : Word32} {s : State} (ha : off.toNat % 4 = 0)
    (hr : regionAt off = some r) (hbase : off.toNat = r.base) (hx : ∀ k, placeByte r.place k s = laneByte x k) :
    s.valueAt off 4 = x.toNat := by
  have hplace : placeValue r.place (off.toNat - r.base) 4 s = x := by
    simp [placeValue, hbase, hx, laneWord_laneByte]
  rw [← placeValue_toNat (.inr ⟨rfl, ha⟩) hr, hplace]

theorem valueAt_status (s : State) : s.valueAt 0x004 4 = s.statusWord.toNat :=
  valueAt_of_lanes rfl rfl rfl fun _ => rfl

theorem valueAt_ctrl (s : State) : s.valueAt 0x008 4 = s.ctrlWord.toNat :=
  valueAt_of_lanes rfl rfl rfl fun _ => rfl

theorem valueAt_keyLen (s : State) : s.valueAt 0x00C 4 = s.keyLenWord.toNat :=
  valueAt_of_lanes rfl rfl rfl fun _ => rfl

theorem valueAt_kcount (s : State) : s.valueAt 0x010 4 = s.kcountWord.toNat :=
  valueAt_of_lanes rfl rfl rfl fun _ => rfl

theorem valueAt_padlen (s : State) : s.valueAt 0x014 4 = s.padlenWord.toNat :=
  valueAt_of_lanes rfl rfl rfl fun _ => rfl

/-- STATUS is 0 when every flag of it is (R25). -/
theorem statusWord_eq_zero {s : State} (hbusy : s.pending = none) (hdone : s.doneFlag = false) (herr : s.error = none)
    (hksv : s.ksv = false) (hmdv : s.mdvFlag = false) : s.statusWord = 0 := by
  simp [State.statusWord, State.errCode, State.errFlag, State.busy, hbusy, hdone, herr, hksv, hmdv]

/-- A step that takes a level of the reset input (R240). -/
theorem step_resetInput {s : State} {asserted : Bool} {rest : List Move}
    (h : s.schedule = .resetInput asserted :: rest) :
    step s = .next (({ s with schedule := rest } : State).driveReset asserted) := by
  simp [step, nextMove, h]

/-- The reset input asserted, or released after having been asserted: the reset state, the host's own fields going on
(R240, R241). -/
theorem State.driveReset_of_reset {s : State} {asserted : Bool} (h : asserted = true ∨ s.inReset = true) :
    s.driveReset asserted = { State.resetWith (Config.resetContents s.draws) with
      inReset := asserted, replies := s.replies, draws := s.draws + 1, schedule := s.schedule } :=
  if_pos (Bool.or_eq_true_iff.2 h)

end Sys2Proof.Machine
end

section
/-! The reset input (70_reset R240, R241). -/

namespace Sys2Proof.Machine

/-- Settles O47: the step drives the reset input, which leaves the reset state with the contents drawn for this reset;
each register reads as a word that is 0 in that state, whatever the contents. -/
theorem resetTakesTheResetValues : Obligations.ResetTakesTheResetValues := by
  intro s asserted rest hs h
  have hstep := (step_resetInput hs).trans (congrArg _ (State.driveReset_of_reset h))
  refine ⟨_, Config.resetContents s.draws, hstep, ?status, ?ctrl, ?keyLen, ?kcount, ?padlen, rfl, rfl, rfl, rfl, rfl⟩
  case status => exact (valueAt_status _).trans (congrArg _ (statusWord_eq_zero rfl rfl rfl rfl rfl))
  case ctrl => exact (valueAt_ctrl _).trans rfl
  case keyLen => exact (valueAt_keyLen _).trans rfl
  case kcount => exact (valueAt_kcount _).trans rfl
  case padlen => exact (valueAt_padlen _).trans rfl

end Sys2Proof.Machine
end

section
/-! SUPPORT. The encoder against the decoder's tests (30_encoding R90 to R96): the fields of an encoded command, the
command of a row of R94, and a word put together again from its fields. -/

namespace Sys2Proof

theorem encodedFields (i : Instr) : Laws.EncodedFields.Statement i := by
  cases i with
  | boRcon n => exact Laws.EncodedFields.boRcon n
  | mdUpdate n => exact Laws.EncodedFields.mdUpdate n
  | _ => exact ⟨opField_append _ _, rsvField_append _ _, rfl⟩

theorem immField_encode (i : Instr) : immField (encode i) = BitVec.ofNat 8 i.immediate := immField_append _ _

theorem Instr.immediate_lt_of_wellFormed {i : Instr} (h : i.wellFormed = true) : i.immediate < 256 := by
  cases i with
  | boRcon n | mdUpdate n => exact of_decide_eq_true h
  | _ => exact Nat.succ_pos _

theorem Instr.immediate_eq_zero_of_not_takes {i : Instr} (h : i.takesImmediate = false) : i.immediate = 0 := by
  cases i with
  | boRcon n | mdUpdate n => cases h
  | _ => rfl

/-- A row of R94 with an 8-bit immediate holds a well-formed command with that row's opcode, and with that immediate
where it takes one. -/
theorem opcodeRow_command {op : Byte} {n : Nat} {i : Instr} (h : opcodeRow op n = some i) (hn : n < 256) :
    i.wellFormed = true ∧ i.opcode = op ∧ (i.takesImmediate = true → i.immediate = n) := by
  have rows : ∀ row ∈ opcodeTable n,
      row.2.wellFormed = true ∧ row.2.opcode.toNat = row.1 ∧ (row.2.takesImmediate = true → row.2.immediate = n) := by
    simp [opcodeTable, Instr.wellFormed, Instr.opcode, Instr.takesImmediate, Instr.immediate, hn]
  obtain ⟨hwf, hop, himm⟩ := rows _ ((opcodeRow_eq_some_iff op n i).1 h)
  exact ⟨hwf, BitVec.eq_of_toNat_eq hop, himm⟩

/-- Two bit strings one after the other, as a number. -/
theorem append_toNat {m n : Nat} (x : BitVec m) (y : BitVec n) : (x ++ y).toNat = x.toNat * 2 ^ n + y.toNat := by
  rw [BitVec.toNat_append, ← Nat.shiftLeft_add_eq_or_of_lt y.isLt, Nat.shiftLeft_eq]

/-- A word is its three fields, OP, RSV and IMM8, one after the other (R90). -/
theorem fields_append (w : Word32) : opField w ++ rsvField w ++ immField w = w := by
  apply BitVec.eq_of_toNat_eq
  rw [append_toNat, append_toNat, opField_toNat, rsvField_toNat, immField_toNat]
  omega

end Sys2Proof
end

section
/-! Decoding against encoding (30_encoding R90 to R96). -/

namespace Sys2Proof

/-- Settles O1: the three tests of R96 on the fields of an encoded command. -/
theorem decodeOfEncode : Obligations.DecodeOfEncode := by
  intro i hwf
  obtain ⟨hop, hrsv, hrow⟩ := encodedFields i
  have himm : (immField (encode i)).toNat = i.immediate := by
    rw [immField_encode, BitVec.toNat_ofNat, Nat.mod_eq_of_lt (Instr.immediate_lt_of_wellFormed hwf)]
  refine (decodeWord_eq_ok_iff_tests _ i).2 ⟨hrsv, by rw [hop, himm, hrow], fun ⟨hne, htakes⟩ => hne ?_⟩
  rw [immField_encode, Instr.immediate_eq_zero_of_not_takes htakes]
  rfl

/-- Settles O2: the row the decoder finds determines the command's opcode and immediate, and these are the fields of
the word. -/
theorem encodeOfDecode : Obligations.EncodeOfDecode := by
  intro w i hd
  obtain ⟨hrsv, hrow, htest⟩ := (decodeWord_eq_ok_iff_tests w i).1 hd
  obtain ⟨hwf, hop, htakes⟩ := opcodeRow_command hrow (immField w).isLt
  have himm : BitVec.ofNat 8 i.immediate = immField w := by
    cases ht : i.takesImmediate with
    | true => rw [htakes ht, BitVec.ofNat_toNat, BitVec.setWidth_eq]
    | false =>
      rw [Instr.immediate_eq_zero_of_not_takes ht]
      exact (not_not.1 fun hne => htest ⟨hne, ht⟩).symm
  refine ⟨hwf, ?_⟩
  calc encode i = i.opcode ++ (0 : BitVec 16) ++ BitVec.ofNat 8 i.immediate := rfl
    _ = opField w ++ rsvField w ++ immField w := by rw [hop, hrsv, himm]
    _ = w := fields_append w

/-- Settles O4: closed words, evaluated by the decoder. -/
theorem workedEncodingsDecode : Obligations.WorkedEncodingsDecode := by
  unfold Obligations.WorkedEncodingsDecode
  decide

end Sys2Proof
end

section
/-! SUPPORT. The key expansion (42_keyschedule R140): the recurrence that round-key Words follow, that one more
`NextWord` keeps it, that `Expand` follows it, and that it determines the Words. -/

namespace Sys2Proof.Machine

theorem vget_eq_getElem {α : Type} [Inhabited α] {n : Nat} (v : Vector α n) {i : Nat} (h : i < n) :
    vget v i = v[i] := by
  simp [vget, h]

/-- `NextWord` on the Words of RK (R140). -/
theorem nextWord_toList (i : Nat) (rk : Vector AesWord 44) :
    nextWord i rk.toList = xorWord (vget rk (i - 4))
      (if i % 4 = 0 then xorWord (subWord (rotWord (vget rk (i - 1)))) (rconWord (i / 4)) else vget rk (i - 1)) := by
  simp only [nextWord, getD_toList]

/-- The Words 4 to `n - 1` follow the key expansion (R140). -/
def FollowsExpansion (rk : Vector AesWord 44) (n : Nat) : Prop :=
  ∀ i, 4 ≤ i → i < n → vget rk i = nextWord i rk.toList

theorem followsExpansion_four (rk : Vector AesWord 44) : FollowsExpansion rk 4 :=
  fun _ h4 hlt => absurd h4 (Nat.not_le.2 hlt)

/-- Writing the next Word keeps the recurrence, since a Word depends on those below it only. -/
theorem FollowsExpansion.vset_next {rk : Vector AesWord 44} {n : Nat} (h : FollowsExpansion rk n) (hn : n < 44) :
    FollowsExpansion (vset rk n (nextWord n rk.toList)) (n + 1) := by
  intro i h4 hi
  have hbelow : nextWord i (vset rk n (nextWord n rk.toList)).toList = nextWord i rk.toList := by
    refine nextWord_congr h4 fun j hj => ?_
    rw [getD_toList, getD_toList, vget_vset_ne _ (by omega)]
  rw [hbelow]
  rcases Nat.lt_succ_iff_lt_or_eq.1 hi with hlt | rfl
  · rw [vget_vset_ne _ (by omega), h i h4 hlt]
  · rw [vget_vset_self _ hn]

/-- The first four Words and the recurrence determine the Words. -/
theorem FollowsExpansion.vget_unique {v w : Vector AesWord 44} {n : Nat} (hv : FollowsExpansion v n)
    (hw : FollowsExpansion w n) (hkey : ∀ j < 4, vget v j = vget w j) {i : Nat} (hi : i < n) :
    vget v i = vget w i := by
  induction i using Nat.strongRecOn with
  | ind i ih =>
    rcases Nat.lt_or_ge i 4 with h4 | h4
    · exact hkey i h4
    · rw [hv i h4 hi, hw i h4 hi]
      refine nextWord_congr h4 fun j hj => ?_
      rw [getD_toList, getD_toList, ih j hj (hj.trans hi)]

/-- `Expand` after its first `n` steps; `Expand` itself is `expandUpTo k 40`. -/
def expandUpTo (k : Window 16) (n : Nat) : List AesWord :=
  (List.range' 4 n).foldl (fun w i => w ++ [nextWord i w]) ((List.range 4).map (keyWord k))

theorem expand_eq_expandUpTo (k : Window 16) : expand k = expandUpTo k 40 := rfl

theorem expandUpTo_succ (k : Window 16) (n : Nat) :
    expandUpTo k (n + 1) = expandUpTo k n ++ [nextWord (4 + n) (expandUpTo k n)] := by
  simp [expandUpTo, List.range'_concat]

@[simp] theorem expandUpTo_length (k : Window 16) (n : Nat) : (expandUpTo k n).length = 4 + n := by
  induction n with
  | zero => rfl
  | succ n ih => rw [expandUpTo_succ, List.length_append, ih]; rfl

/-- A step of `Expand` leaves the Words before it. -/
theorem expandUpTo_succ_getD (k : Window 16) {n j : Nat} (hj : j < 4 + n) :
    (expandUpTo k (n + 1)).getD j default = (expandUpTo k n).getD j default := by
  rw [expandUpTo_succ, List.getD_append _ _ _ _ (by simpa using hj)]

theorem expandUpTo_key (k : Window 16) (n : Nat) {j : Nat} (hj : j < 4) :
    (expandUpTo k n).getD j default = keyWord k j := by
  induction n with
  | zero => simp [expandUpTo, hj]
  | succ n ih => rw [expandUpTo_succ_getD k (by omega), ih]

theorem expandUpTo_follows (k : Window 16) (n : Nat) {i : Nat} (h4 : 4 ≤ i) (hi : i < 4 + n) :
    (expandUpTo k n).getD i default = nextWord i (expandUpTo k n) := by
  induction n with
  | zero => omega
  | succ n ih =>
    have hbelow : nextWord i (expandUpTo k (n + 1)) = nextWord i (expandUpTo k n) :=
      nextWord_congr h4 fun j hj => expandUpTo_succ_getD k (by omega)
    rw [hbelow]
    rcases Nat.lt_succ_iff_lt_or_eq.1 hi with hlt | rfl
    · rw [expandUpTo_succ_getD k hlt, ih hlt]
    · rw [expandUpTo_succ, List.getD_append_right _ _ _ _ (by simp)]
      simp

/-- RK as KS_EXPAND writes it (R144). -/
def expandedKeys (k : Window 16) : Vector AesWord 44 := Vector.ofFn fun i => (expand k).getD i.val default

theorem commandEffect_ksExpand (o : Operands) (s : State) :
    commandEffect .ksExpand o s = s.setSchedule (expandedKeys o.key) 44 := rfl

theorem expandedKeys_vget (k : Window 16) {i : Nat} (hi : i < 44) :
    vget (expandedKeys k) i = (expandUpTo k 40).getD i default := by
  rw [expandedKeys, vget_ofFn _ hi, expand_eq_expandUpTo]

theorem expandedKeys_key (k : Window 16) {j : Nat} (hj : j < 4) : vget (expandedKeys k) j = keyWord k j := by
  rw [expandedKeys_vget k (by omega), expandUpTo_key k 40 hj]

theorem expandedKeys_follows (k : Window 16) : FollowsExpansion (expandedKeys k) 44 := by
  intro i h4 hi
  rw [expandedKeys_vget k hi, expandUpTo_follows k 40 h4 hi]
  refine nextWord_congr h4 fun j hj => ?_
  rw [getD_toList, expandedKeys_vget k (by omega)]

/-- RK as KS_INIT writes it: the first four Words are the key's (R142). -/
theorem keyWords_vget (key : Window 16) (rk : Vector AesWord 44) {j : Nat} (hj : j < 4) :
    vget ((List.range 4).foldl (fun rk j => vset rk j (keyWord key j)) rk) j = keyWord key j := by
  have hrange : List.range 4 = [0, 1, 2, 3] := rfl
  simp only [hrange, List.foldl_cons, List.foldl_nil]
  obtain rfl | rfl | rfl | rfl : j = 0 ∨ j = 1 ∨ j = 2 ∨ j = 3 := by omega
  all_goals simp

end Sys2Proof.Machine
end

section
/-! SUPPORT. The legal states in two halves: what the engines hold, which only completions and resets change, and what
PENDING holds. Each half with the states that share it. -/

namespace Sys2Proof.Machine

/-- A command's checks read KCOUNT, MDV and the MD state only, beside the operands. -/
theorem firstFailing_congr {s t : State} (hk : t.kcount = s.kcount) (hmdv : t.mdvFlag = s.mdvFlag) (hmd : t.md = s.md)
    (i : Instr) (o : Operands) : firstFailing i o t = firstFailing i o s := by
  have hchecks : ruleChecks i o t = ruleChecks i o s := by
    cases i <;> simp only [ruleChecks, hk, hmdv, hmd]
  rw [firstFailing, firstFailing, hchecks]

/-- What `State.Inv` says of the outputs of the engines. -/
structure EnginesLegal (s : State) : Prop where
  kcount_legal : s.kcount.toNat = 0 ∨ (4 ≤ s.kcount.toNat ∧ s.kcount.toNat ≤ 44)
  padlen_legal : s.padlen.toNat = 0 ∨ (9 ≤ s.padlen.toNat ∧ s.padlen.toNat ≤ 72)
  count_zero : s.mdvFlag = false → s.md.count = 0
  schedule_ok : FollowsExpansion s.rk s.kcount.toNat

/-- What `State.Inv` says of PENDING. -/
structure PendingLegal (s : State) : Prop where
  captured : ∀ p, s.pending = some p → p.operands = s.operands
  accepted : ∀ p, s.pending = some p → firstFailing p.instr p.operands s = none
  busy_not_done : s.pending ≠ none → s.doneFlag = false
  reset_idle : s.inReset = true → s.pending = none

theorem State.inv_iff (s : State) : s.Inv ↔ EnginesLegal s ∧ PendingLegal s :=
  ⟨fun ⟨hk, hp, hcap, hacc, hdone, hreset, hcount, hsch⟩ => ⟨⟨hk, hp, hcount, hsch⟩, ⟨hcap, hacc, hdone, hreset⟩⟩,
    fun ⟨⟨hk, hp, hcount, hsch⟩, ⟨hcap, hacc, hdone, hreset⟩⟩ => ⟨hk, hp, hcap, hacc, hdone, hreset, hcount, hsch⟩⟩

theorem EnginesLegal.congr {s t : State} (h : EnginesLegal s) (hk : t.kcount = s.kcount := by rfl)
    (hpl : t.padlen = s.padlen := by rfl) (hmdv : t.mdvFlag = s.mdvFlag := by rfl) (hmd : t.md = s.md := by rfl)
    (hrk : t.rk = s.rk := by rfl) : EnginesLegal t := by
  obtain ⟨hkl, hpll, hcount, hsch⟩ := h
  constructor <;> simpa only [hk, hpl, hmdv, hmd, hrk]

/-- With nothing pending there is nothing to ask of PENDING. -/
theorem PendingLegal.of_idle {s : State} (h : s.pending = none) : PendingLegal s where
  captured _ hp := nomatch h.symm.trans hp
  accepted _ hp := nomatch h.symm.trans hp
  busy_not_done hp := absurd h hp
  reset_idle _ := h

/-- A move that leaves PENDING, the operands, the reset level and what checks read, and sets no DONE. -/
theorem PendingLegal.congr {s t : State} (h : PendingLegal s) (hp : t.pending = s.pending := by rfl)
    (ho : t.operands = s.operands := by rfl) (hr : t.inReset = s.inReset := by rfl)
    (hk : t.kcount = s.kcount := by rfl) (hmdv : t.mdvFlag = s.mdvFlag := by rfl) (hmd : t.md = s.md := by rfl)
    (hd : t.doneFlag = true → s.doneFlag = true := by exact id) : PendingLegal t where
  captured p hpt := by rw [ho]; exact h.captured p (hp ▸ hpt)
  accepted p hpt := by rw [firstFailing_congr hk hmdv hmd]; exact h.accepted p (hp ▸ hpt)
  busy_not_done hpt := Bool.eq_false_of_not_eq_true fun hdt =>
    Bool.noConfusion ((hd hdt).symm.trans (h.busy_not_done (hp ▸ hpt)))
  reset_idle hrt := by rw [hp]; exact h.reset_idle (hr ▸ hrt)

/-- A reset state is legal, whatever the UNSPECIFIED storage holds (R44). -/
theorem enginesLegal_resetWith (c : ResetContents) : EnginesLegal (State.resetWith c) where
  kcount_legal := .inl rfl
  padlen_legal := .inl rfl
  count_zero _ := rfl
  schedule_ok _ _ hi := absurd hi (Nat.not_lt_zero _)

theorem padLength_le (l : Word64) : padLength l ≤ 72 := by
  rcases Nat.lt_or_ge (l.toNat % 64) 56 with h | h
  · rw [padLength_of_lt h]; omega
  · rw [padLength_of_ge h]; omega

/-- The padding's length fits PADLEN (R29, R164). -/
theorem padlen_toNat (l : Word64) : (BitVec.ofNat 8 (padBytes l).length).toNat = padLength l := by
  rw [padBytes_length, BitVec.toNat_ofNat]
  exact Nat.mod_eq_of_lt ((padLength_le l).trans_lt (by decide))

/-- A command whose checks ask for MDV finds it set (R173, R175, R177). -/
theorem checkMdv_passes {s : State} {more : Option ErrorCode} (h : checkMdv s more = none) : s.mdvFlag = true := by
  unfold checkMdv at h
  split at h
  · assumption
  · cases h

/-- KCOUNT + 1 does not wrap (R28, R143). -/
theorem kcount_succ_toNat {k : BitVec 6} (h : k.toNat < 44) : (k + 1).toNat = k.toNat + 1 := by
  rw [BitVec.toNat_add]
  exact Nat.mod_eq_of_lt (by simp; omega)

/-- The effect of a command whose checks pass keeps the engines legal (R251). -/
theorem commandEffect_enginesLegal {i : Instr} {o : Operands} {s : State} (h : EnginesLegal s)
    (hc : commandCheck i o s = none) : EnginesLegal (commandEffect i o s) := by
  cases i with
  | nop | boXor | boRot | boSub | boRcon => exact h.congr
  | ksInit =>
    exact ⟨.inr (by simp [commandEffect]), h.padlen_legal, h.count_zero, followsExpansion_four _⟩
  | ksStep =>
    have hn : 4 ≤ s.kcount.toNat ∧ s.kcount.toNat ≤ 43 := by
      by_contra hn
      simp [commandCheck, checkKsStep, hn] at hc
    have hsucc := kcount_succ_toNat (by omega : s.kcount.toNat < 44)
    refine ⟨.inr ?_, h.padlen_legal, h.count_zero, ?_⟩
    · simp only [commandEffect, State.setSchedule_kcount, hsucc]
      omega
    · simp only [commandEffect, State.setSchedule_kcount, State.setSchedule_rk, hsucc]
      exact h.schedule_ok.vset_next (by omega)
  | ksExpand =>
    rw [commandEffect_ksExpand]
    exact ⟨.inr (by simp), h.padlen_legal, h.count_zero, expandedKeys_follows o.key⟩
  | mdInit | mdLoaddig => exact ⟨h.kcount_legal, h.padlen_legal, fun hm => (nomatch hm), h.schedule_ok⟩
  | mdSetcnt | mdUpdate | mdFinal =>
    have hmdv : s.mdvFlag = true := checkMdv_passes hc
    exact ⟨h.kcount_legal, h.padlen_legal, fun hm => Bool.noConfusion (hmdv.symm.trans hm), h.schedule_ok⟩
  | mdPadgen =>
    refine ⟨h.kcount_legal, .inr ?_, h.count_zero, h.schedule_ok⟩
    rw [commandEffect, State.setPadding_padlen, padlen_toNat]
    exact ⟨nine_le_padLength o.arg, padLength_le o.arg⟩

/-- Driving the reset input keeps the legal states (R240, R241). -/
theorem driveReset_inv {s : State} (h : s.Inv) (b : Bool) : (s.driveReset b).Inv := by
  by_cases hb : b = true ∨ s.inReset = true
  · rw [State.driveReset_of_reset hb]
    exact (State.inv_iff _).2 ⟨(enginesLegal_resetWith _).congr, .of_idle rfl⟩
  · rwa [State.driveReset, if_neg (by simpa using hb)]

/-- A host read keeps the legal states (R69). -/
theorem busRead_inv {s : State} (h : s.Inv) (off : Offset) (n : Nat) : (busRead off n s).Inv := by
  obtain ⟨hengines, hpending⟩ := s.inv_iff.1 h
  rw [(busRead_shape off n s).1]
  exact (State.inv_iff _).2 ⟨hengines.congr, hpending.congr⟩

/-- A write to CMD that passes the access checks finds BUSY = 0 (R70). -/
theorem pending_none_of_resolve_cmd {s : State} {off : Offset} {n i : Nat}
    (h : resolve true off n s.busy = .ok (.cmd, i)) : s.pending = none := by
  by_contra hp
  rw [State.busy_of_pending hp] at h
  cases resolve_write_busy h <;> contradiction

/-- The issue of a command word keeps the legal states: what it accepts has passed its checks (R201). -/
theorem issue_inv {s t : State} {w : Word32} (h : s.Inv) (hp : s.pending = none) (hreset : s.inReset = false)
    (ht : issue w s = .next t) : t.Inv := by
  obtain ⟨hengines, -⟩ := s.inv_iff.1 h
  rcases issue_next_cases hp ht with ⟨-, rfl⟩ | ⟨-, e, rfl⟩ | ⟨-, i, -, hc, rfl⟩
  · exact h
  · exact (State.inv_iff _).2 ⟨hengines.congr, .of_idle hp⟩
  · refine (State.inv_iff _).2 ⟨hengines.congr, ?_, ?_, fun _ => rfl, ?_⟩
    · rintro _ ⟨⟩
      rfl
    · rintro _ ⟨⟩
      rw [← hc, commandCheck_eq_firstFailing]
      rfl
    · exact fun hr => Bool.noConfusion (hr.symm.trans hreset)

/-- A carried-out write other than to CMD keeps the legal states: while BUSY = 1 it leaves the operands (R70, R77). -/
theorem writePlace_inv {s : State} {off : Offset} {n : Nat} {p : Place} {i : Nat} (h : s.Inv)
    (hr : resolve true off n s.busy = .ok (p, i)) (v : Word32) : (s.writePlace p i n v).Inv := by
  obtain ⟨hengines, hpending⟩ := s.inv_iff.1 h
  refine (State.inv_iff _).2 ⟨hengines.congr (by simp) (by simp) (by simp) (by simp) (by simp), ?_⟩
  by_cases hp : s.pending = none
  · exact .of_idle (by simpa using hp)
  · have shape := writePlace_shape p i n v s
    have hplace : p = .status ∨ p = .ctrl := resolve_write_busy (State.busy_of_pending hp ▸ hr)
    exact hpending.congr (by simp) (shape.operands_eq hplace) (by simp) (by simp) (by simp) (by simp)
      shape.doneFlag_cleared

/-- A host write keeps the legal states. -/
theorem busWrite_inv {s t : State} {off : Offset} {n : Nat} {v : Word32} (h : s.Inv)
    (hreset : s.inReset = false) (ht : busWrite off n v s = .next t) : t.Inv := by
  rcases busWrite_cases off n v s with ⟨e, -, hw⟩ | ⟨i, hr, hw⟩ | ⟨p, i, hr, -, hw⟩ <;> rw [hw] at ht
  · obtain ⟨hengines, hpending⟩ := s.inv_iff.1 h
    cases ht
    rw [State.raise_eq]
    exact (State.inv_iff _).2 ⟨hengines.congr, hpending.congr⟩
  · exact issue_inv h (pending_none_of_resolve_cmd hr) hreset ht
  · cases ht
    exact writePlace_inv h hr v

/-- Only the completion of a command that its checks reject stops the engine (R204). -/
theorem exec_continues {i : Instr} {s : State}
    (h : ∀ p, s.pending = some p → firstFailing i p.operands s = none) : ∃ t, exec i s = .next t := by
  by_contra hstop
  obtain ⟨p, e, hp, hc, -⟩ := exec_stops (not_exists.1 hstop)
  rw [commandCheck_eq_firstFailing, h p hp] at hc
  cases hc

/-- The issue of a command word always has a next state (R201). -/
theorem issue_continues {s : State} (w : Word32) (hp : s.pending = none) : ∃ t, issue w s = .next t := by
  cases hd : decodeWord w with
  | ok i =>
    rw [issue_legal hd]
    exact exec_continues fun p hp' => nomatch hp.symm.trans hp'
  | error e =>
    by_cases he : s.error = none
    · exact ⟨_, issue_illegal hd he⟩
    · exact ⟨_, issue_ignored hp he⟩

/-- A host write always has a next state. -/
theorem busWrite_continues (off : Offset) (n : Nat) (v : Word32) (s : State) : ∃ t, busWrite off n v s = .next t := by
  rcases busWrite_cases off n v s with ⟨e, -, hw⟩ | ⟨i, hr, hw⟩ | ⟨p, i, -, -, hw⟩
  · exact ⟨_, hw⟩
  · rw [hw]
    exact issue_continues v (pending_none_of_resolve_cmd hr)
  · exact ⟨_, hw⟩

/-- The engine's turn with nothing pending (R251). -/
theorem step_engine_idle {s : State} {rest : List Move} (h : s.EngineTurn rest) (hp : s.pending = none) :
    step s = .next { s with schedule := rest } := by
  rw [step_engine h]
  simp [engineMove, hp]

/-- Whose move is next: the engine's, the reset input's or the host's. -/
theorem State.schedule_cases (s : State) :
    (∃ rest, s.EngineTurn rest) ∨ (∃ b rest, s.schedule = .resetInput b :: rest) ∨
      ∃ a rest, s.schedule = .host a :: rest := by
  cases hs : s.schedule with
  | nil => exact .inl ⟨[], .inr ⟨hs, rfl⟩⟩
  | cons m rest =>
    cases m with
    | engine => exact .inl ⟨rest, .inl hs⟩
    | resetInput b => exact .inr (.inl ⟨b, rest, rfl⟩)
    | host a => exact .inr (.inr ⟨a, rest, rfl⟩)

/-- A host access while reset is not asserted always has a next state. -/
theorem step_host_continues {s : State} {a : Access} {rest : List Move} (h : s.Presents a rest) :
    ∃ t, step s = .next t := by
  cases a with
  | read off n => exact ⟨_, step_read h⟩
  | write off n v =>
    rw [step_write h]
    exact busWrite_continues off n v _

/-- A step has a next state when the pending command passes its checks and the host keeps out of reset. -/
theorem step_continues {s : State} (hacc : ∀ p, s.pending = some p → firstFailing p.instr p.operands s = none)
    (hhost : s.HostKeepsOut) : ∃ t, step s = .next t := by
  rcases s.schedule_cases with ⟨rest, hturn⟩ | ⟨b, rest, hs⟩ | ⟨a, rest, hs⟩
  · cases hp : s.pending with
    | none => exact ⟨_, step_engine_idle hturn hp⟩
    | some p =>
      rw [step_engine_pending hturn hp]
      refine exec_continues fun q hq => ?_
      obtain rfl : p = q := Option.some.inj (hp.symm.trans hq)
      exact hacc p hp
  · exact ⟨_, step_resetInput hs⟩
  · refine step_host_continues (a := a) ⟨hs, ?_⟩
    by_contra hr
    exact hhost (Bool.eq_true_of_not_eq_false hr) a rest hs

end Sys2Proof.Machine
end

section
/-! The legal states (10_state R28, R29, R77; 60_exceptions R201, R204). -/

namespace Sys2Proof.Machine

/-- Settles O51: the registers that the legal states speak of are 0 at reset, and nothing is pending. -/
theorem invariantHoldsAtReset : Obligations.InvariantHoldsAtReset := by
  have hreset (c : ResetContents) : (State.resetWith c).Inv :=
    (State.inv_iff _).2 ⟨enginesLegal_resetWith c, .of_idle rfl⟩
  exact ⟨hreset zeroContents, hreset⟩

/-- Settles O52: the five things a step can do each keep the legal states. -/
theorem everyStepKeepsTheInvariant : Obligations.EveryStepKeepsTheInvariant := by
  intro s t h hstep
  obtain ⟨hengines, hpending⟩ := s.inv_iff.1 h
  have hpop : s.popMove.Inv := (State.inv_iff _).2 ⟨hengines.congr, hpending.congr⟩
  rcases step_next_cases hstep with ⟨-, rfl⟩ | ⟨p, -, hc, rfl⟩ | ⟨b, _, -, rfl⟩ | ⟨off, n, _, -, -, rfl⟩ |
    ⟨off, n, v, _, -, hreset, hw⟩
  · exact hpop
  · have heffect := commandEffect_enginesLegal (hengines.congr : EnginesLegal s.popMove)
      ((commandCheck_popMove ..).trans hc)
    exact (State.inv_iff _).2 ⟨heffect.congr, .of_idle rfl⟩
  · exact driveReset_inv hpop b
  · exact busRead_inv hpop off n
  · exact busWrite_inv hpop hreset hw

/-- Settles O53: in a legal state the pending command passes its checks, so nothing a step does can stop but a host
access in reset, which the host does not make. -/
theorem legalStatesNeverStop : Obligations.LegalStatesNeverStop := by
  intro s h hhost
  obtain ⟨t, ht⟩ := step_continues h.accepted hhost
  exact ⟨t, ht, everyStepKeepsTheInvariant s t h ht⟩

end Sys2Proof.Machine
end

section
/-! SUPPORT. The completion of an accepted command (70_reset R251): what no effect touches, and when it stops. -/

namespace Sys2Proof.Machine

variable (i : Instr) (o : Operands) (s : State)

@[simp] theorem commandEffect_operands : (commandEffect i o s).operands = s.operands := by
  rw [commandEffect_frame]
@[simp] theorem commandEffect_ieFlag : (commandEffect i o s).ieFlag = s.ieFlag := by
  rw [commandEffect_frame]
@[simp] theorem commandEffect_error : (commandEffect i o s).error = s.error := by
  rw [commandEffect_frame]
@[simp] theorem commandEffect_inReset : (commandEffect i o s).inReset = s.inReset := by
  rw [commandEffect_frame]
@[simp] theorem commandEffect_replies : (commandEffect i o s).replies = s.replies := by
  rw [commandEffect_frame]
@[simp] theorem commandEffect_draws : (commandEffect i o s).draws = s.draws := by
  rw [commandEffect_frame]
@[simp] theorem commandEffect_schedule : (commandEffect i o s).schedule = s.schedule := by
  rw [commandEffect_frame]

/-- The completion of an accepted command, by its captured operands (R251). -/
theorem exec_completes_with {i : Instr} {s : State} {o : Operands} (hp : s.pending = some ⟨i, o⟩)
    (hc : commandCheck i o s = none) : exec i s = .next (commandEffect i o s).complete :=
  exec_completes hp hc

/-- The completion of a command that its checks reject stops the model (log entry 10). -/
theorem exec_pendingRejected {i : Instr} {s : State} {p : Pending} {e : ErrorCode} (hp : s.pending = some p)
    (hc : commandCheck i p.operands s = some e) : exec i s = .fault .pendingRejected := by
  simp [exec_eq_runCommand, runCommand, hp, hc]

/-- The round of an element of the Rcon sequence passes BO_RCON's check and selects that element (R122, R127). -/
theorem rcEntry_of_getElem? {n : Nat} {c : Byte} (h1 : 1 ≤ n) (hc : rcSequence[n - 1]? = some c) :
    checkRound n = none ∧ rconWord n = ⟨c, 0, 0, 0⟩ := by
  obtain ⟨k, rfl⟩ := Nat.exists_eq_add_of_le' h1
  rw [Nat.add_sub_cancel] at hc
  obtain ⟨hk, -⟩ := List.getElem?_eq_some_iff.1 hc
  have hk : k < 10 := hk
  exact ⟨if_pos ⟨h1, hk⟩, by rw [rconWord, rcEntry, hc, Option.getD_some]⟩

/-- The number of a Word as the sum of its bytes (R10). -/
theorem wordval_toNat (w : AesWord) :
    (wordval w).toNat = w.b0.toNat * 2 ^ 24 + w.b1.toNat * 2 ^ 16 + w.b2.toNat * 2 ^ 8 + w.b3.toNat :=
  laneWord_toNat ..

/-- A rotation left by 8 bits moves the first byte to the end (R11). -/
theorem rotl32_eight_toNat (x : Word32) :
    (rotl32 x 8).toNat = x.toNat % 2 ^ 24 * 2 ^ 8 + x.toNat / 2 ^ 24 := by
  have hleft : (x <<< 8).toNat = (x.toNat % 2 ^ 24) <<< 8 := by
    rw [BitVec.toNat_shiftLeft, Nat.shiftLeft_eq, Nat.shiftLeft_eq]
    omega
  have hright : (x >>> (32 - 8)).toNat = x.toNat / 2 ^ 24 := by
    rw [BitVec.toNat_ushiftRight, Nat.shiftRight_eq_div_pow]
  rw [rotl32, BitVec.toNat_or, hleft, hright, ← Nat.shiftLeft_add_eq_or_of_lt (by omega), Nat.shiftLeft_eq]

/-- The byte whose affine image the S-box holds for `x`, by the inverse of the affine map (R121). -/
def sboxPreimage (x : Byte) : Byte :=
  let b := sbox x ^^^ 0x63
  b.rotateLeft 1 ^^^ b.rotateLeft 3 ^^^ b.rotateLeft 6

/-- The S-box table is R121's definition of it, entry by entry. -/
theorem sboxPreimage_inverse :
    ∀ x : Byte, x ≠ 0 → gfMul x (sboxPreimage x) = 1 ∧ sbox x = sboxAffine (sboxPreimage x) ^^^ 0x63 := by
  decide +kernel

/-- RotWord rotates the Word's number left by 8 bits (R125). -/
theorem wordval_rotWord (w : AesWord) : wordval (rotWord w) = rotl32 (wordval w) 8 := by
  apply BitVec.eq_of_toNat_eq
  rw [rotl32_eight_toNat, wordval_toNat, wordval_toNat]
  simp only [rotWord]
  omega

theorem vset_eq_set {α : Type} {n i : Nat} (v : Vector α n) (h : i < n) (x : α) : vset v i x = v.set i x := by
  apply Vector.ext
  intro j hj
  simp [vset, Vector.getElem_setIfInBounds, Vector.getElem_set]

/-- A key Word is the key's 4-byte group (R33, R64). -/
theorem keyWord_eq (key : Window 16) {j : Nat} (hj : j < 4) :
    keyWord key j = ⟨key[4 * j], key[4 * j + 1], key[4 * j + 2], key[4 * j + 3]⟩ := by
  rw [keyWord, vget_eq_getElem key (i := 4 * j) (by omega), vget_eq_getElem key (i := 4 * j + 1) (by omega),
    vget_eq_getElem key (i := 4 * j + 2) (by omega), vget_eq_getElem key (i := 4 * j + 3) (by omega)]

end Sys2Proof.Machine
end

section
/-! Steps and the engine's turn (60_exceptions R201, 70_reset R242, R251). -/

namespace Sys2Proof.Machine

/-- Settles O5: a CMD write with BUSY = 0 issues its word, and the engine's turn executes PENDING. -/
theorem stepRunsTheCommand : Obligations.StepRunsTheCommand := by
  refine ⟨fun s w i rest h hp hd => ?_, fun s p rest hturn hp => step_engine_pending hturn hp⟩
  rw [step_write_cmd h hp, issue_legal hd]

/-- Settles O6: the placed write is a CMD write with nothing in its way. -/
theorem placedWordRunsNext : Obligations.PlacedWordRunsNext := by
  intro s nbits w i hd
  have hd : decodeWord (BitVec.ofNat 32 (w % 2 ^ nbits)) = .ok i := by
    unfold decodeTableWord at hd
    split at hd
    · rename_i hok
      rw [hok, Option.some.inj hd]
    · cases hd
  rw [step_write_cmd (s := s.withFetchWord nbits w) ⟨rfl, rfl⟩ rfl, issue_legal hd]
  rfl

/-- Settles O8: the turn executes the pending command, whose effect writes outputs of the engines only. -/
theorem engineCompletesAcceptedCommand : Obligations.EngineCompletesAcceptedCommand := by
  intro s rest hturn
  refine ⟨step_engine_idle hturn, fun p hp hf => ?_⟩
  have hcheck := (commandCheck_withSchedule_eq_firstFailing p.instr p.operands s rest).trans hf
  refine ⟨(commandEffect p.instr p.operands { s with schedule := rest }).complete, ?_, ?_⟩
  · rw [step_engine_pending hturn hp]
    exact exec_completes hp hcheck
  · simp [State.busy]

/-- Settles O9: the checks of the meanings are those of the rules, and a completion that fails one stops. -/
theorem unacceptedCommandStops : Obligations.UnacceptedCommandStops := by
  intro i o s hp hf
  obtain ⟨e, he⟩ := Option.ne_none_iff_exists'.1 hf
  exact exec_pendingRejected hp ((commandCheck_eq_firstFailing i o s).trans he)

/-- Settles O49: the host's move faults before it looks at the access. -/
theorem hostAccessInResetStops : Obligations.HostAccessInResetStops := by
  intro s a rest hs hreset
  simp [step, nextMove, hs, hostMove, hreset]

end Sys2Proof.Machine
end

section
/-! The completion of the control, ByteOps and key-schedule commands (40_control, 41_byteops, 42_keyschedule). -/

namespace Sys2Proof.Machine

/-- Settles O10: NOP has no check and no effect. -/
theorem nopCompletes : Obligations.NopCompletes :=
  fun _ _ hp => exec_completes_with hp rfl

/-- Settles O11: neither command has a check, and each writes its word function of the captured operands to RES. -/
theorem boXorAndBoRotComplete : Obligations.BoXorAndBoRotComplete :=
  ⟨fun _ _ hp => exec_completes_with hp rfl, fun _ _ hp => exec_completes_with hp rfl⟩

/-- Settles O12: BO_ROT writes RotWord of the captured OPA, and RotWord rotates the number. -/
theorem rotWordRotatesItsNumber : Obligations.RotWordRotatesItsNumber :=
  ⟨wordval_rotWord, fun _ o hp => ⟨_, exec_completes_with hp rfl, wordval_rotWord o.opa⟩⟩

/-- Settles O13: BO_SUB has no check and writes SubWord of the captured OPA. -/
theorem boSubCompletes : Obligations.BoSubCompletes :=
  fun _ _ hp => exec_completes_with hp rfl

/-- Settles O14: the table's 255 other entries are the affine images of the inverses. -/
theorem sboxIsAffineOfInverse : Obligations.SboxIsAffineOfInverse :=
  ⟨rfl, fun x hx => ⟨sboxPreimage x, sboxPreimage_inverse x hx⟩⟩

/-- Settles O15: the sequence has ten elements, so the round of each passes the check. -/
theorem boRconCompletes : Obligations.BoRconCompletes := by
  intro s o n c hp h1 hc
  obtain ⟨hcheck, hword⟩ := rcEntry_of_getElem? h1 hc
  rw [exec_completes_with hp hcheck, commandEffect, hword]
  rfl

/-- Settles O16: KS_INIT writes the key's four Words one after the other. -/
theorem ksInitCompletes : Obligations.KsInitCompletes := by
  intro s o hp hlen
  have hcheck : commandCheck .ksInit o s = none := if_pos hlen
  refine ⟨_, exec_completes_with hp hcheck, fun j hj => ?_⟩
  rw [← vget_eq_getElem, commandEffect, State.setSchedule_rk, keyWords_vget o.key s.rk hj, keyWord_eq o.key hj]

/-- Settles O17: KS_STEP writes `NextWord` of RK at index KCOUNT. -/
theorem ksStepCompletes : Obligations.KsStepCompletes := by
  intro s o i h4 h43 hp hi
  have hcheck : commandCheck .ksStep o s = none := if_pos (by omega)
  have hcount : s.kcount + 1 = BitVec.ofNat 6 (i + 1) := by
    rw [← hi, BitVec.ofNat_add, BitVec.ofNat_toNat, BitVec.setWidth_eq]
    rfl
  have hnext := nextWord_toList i s.rk
  rw [vget_eq_getElem s.rk (i := i - 4) (by omega), vget_eq_getElem s.rk (i := i - 1) (by omega)] at hnext
  rw [exec_completes_with hp hcheck, commandEffect, hi, vset_eq_set s.rk (by omega), hnext, hcount]
  rfl

/-- Settles O18: KS_EXPAND writes `Expand` of the captured key, whose Words follow the recurrence. -/
theorem ksExpandCompletes : Obligations.KsExpandCompletes := by
  intro s o hp hlen
  have hcheck : commandCheck .ksExpand o s = none := if_pos hlen
  refine ⟨expandedKeys o.key, exec_completes_with hp hcheck, fun j hj => ?_, fun i h4 hi => ?_⟩
  · rw [← vget_eq_getElem, expandedKeys_key o.key hj, keyWord_eq o.key hj]
  · simp only [← vget_eq_getElem]
    rw [expandedKeys_follows o.key i h4 hi, nextWord_toList]

end Sys2Proof.Machine
end

section
/-! SUPPORT. The accumulator as bytes (43_md4 R165): `Ser` and `Deser` byte by byte, and that they are inverse. -/

namespace Sys2Proof.Machine

theorem le32_toNat (b0 b1 b2 b3 : Byte) :
    (le32 b0 b1 b2 b3).toNat = b0.toNat + b1.toNat * 2 ^ 8 + b2.toNat * 2 ^ 16 + b3.toNat * 2 ^ 24 := by
  rw [le32, append_toNat, append_toNat, append_toNat]
  omega

theorem le32Byte_eq (x : Word32) (k : Nat) : le32Byte x k = BitVec.ofNat 8 (x.toNat / 2 ^ (8 * k)) := by
  rw [le32Byte, BitVec.extractLsb', Nat.shiftRight_eq_div_pow]

theorem le32_le32Byte (x : Word32) : le32 (le32Byte x 0) (le32Byte x 1) (le32Byte x 2) (le32Byte x 3) = x := by
  apply BitVec.eq_of_toNat_eq
  rw [le32_toNat]
  simp only [le32Byte_eq, BitVec.toNat_ofNat]
  omega

theorem le32Byte_le32 (b0 b1 b2 b3 : Byte) {k : Nat} (hk : k < 4) :
    le32Byte (le32 b0 b1 b2 b3) k = [b0, b1, b2, b3].getD k 0 := by
  apply BitVec.eq_of_toNat_eq
  rw [le32Byte_eq, BitVec.toNat_ofNat, le32_toNat]
  obtain rfl | rfl | rfl | rfl : k = 0 ∨ k = 1 ∨ k = 2 ∨ k = 3 := by omega
  all_goals
    simp only [List.getD_cons_zero, List.getD_cons_succ]
    omega

/-- Byte `k` of group `j` of the serialised accumulator (R165). -/
theorem vget_ser (h : HashState) {j k : Nat} (hj : j < 4) (hk : k < 4) :
    vget (ser h) (4 * j + k) = le32Byte (hashWord h j) k := by
  have hgroup : (4 * j + k) / 4 = j := by omega
  have hbyte : (4 * j + k) % 4 = k := by omega
  rw [ser, vget_ofFn _ (by omega), hgroup, hbyte]

theorem hashWord_deser (d : Window 16) {j : Nat} (hj : j < 4) : hashWord (deser d) j = leGroup d j := by
  obtain rfl | rfl | rfl | rfl : j = 0 ∨ j = 1 ∨ j = 2 ∨ j = 3 := by omega
  all_goals rfl

/-- A group of the deserialised window is the little-endian integer of its four bytes (R64). -/
theorem leGroup_toNat (d : Window 16) {j : Nat} (hj : j < 4) : (leGroup d j).toNat =
    d[4 * j].toNat + d[4 * j + 1].toNat * 2 ^ 8 + d[4 * j + 2].toNat * 2 ^ 16 + d[4 * j + 3].toNat * 2 ^ 24 := by
  rw [leGroup, le32_toNat, vget_eq_getElem d (i := 4 * j) (by omega), vget_eq_getElem d (i := 4 * j + 1) (by omega),
    vget_eq_getElem d (i := 4 * j + 2) (by omega), vget_eq_getElem d (i := 4 * j + 3) (by omega)]

theorem leGroup_ser (h : HashState) {j : Nat} (hj : j < 4) : leGroup (ser h) j = hashWord h j := by
  have hzero : vget (ser h) (4 * j) = le32Byte (hashWord h j) 0 := vget_ser h hj (k := 0) (by decide)
  rw [leGroup, hzero, vget_ser h hj (k := 1) (by decide), vget_ser h hj (k := 2) (by decide),
    vget_ser h hj (k := 3) (by decide), le32_le32Byte]

theorem deser_ser (h : HashState) : deser (ser h) = h := by
  rw [deser, leGroup_ser h (by decide), leGroup_ser h (by decide), leGroup_ser h (by decide),
    leGroup_ser h (by decide)]
  rfl

theorem ser_deser (d : Window 16) : ser (deser d) = d := by
  refine vector_ext_vget fun i hi => ?_
  obtain ⟨j, k, hj, hk, rfl⟩ : ∃ j k, j < 4 ∧ k < 4 ∧ i = 4 * j + k := ⟨i / 4, i % 4, by omega, by omega, by omega⟩
  rw [vget_ser _ hj hk, hashWord_deser d hj, leGroup, le32Byte_le32 _ _ _ _ hk]
  obtain rfl | rfl | rfl | rfl : k = 0 ∨ k = 1 ∨ k = 2 ∨ k = 3 := by omega
  all_goals rfl

end Sys2Proof.Machine
end

section
/-! SUPPORT. The padded length, and the padding in its window (43_md4 R164, R179). -/

namespace Sys2Proof.Machine

/-- A length and its padding together are whole blocks (R164). -/
theorem length_add_padLength (l : Word64) : (l.toNat + padLength l) % 64 = 0 := by
  rcases Nat.lt_or_ge (l.toNat % 64) 56 with h | h
  · rw [padLength_of_lt h]; omega
  · rw [padLength_of_ge h]; omega

/-- COUNT after the padding is a multiple of 64, also where it wraps (R164, R174). -/
theorem count_add_padding (l : Word64) : (l + BitVec.ofNat 64 (padBytes l).length).toNat % 64 = 0 := by
  have h := length_add_padLength l
  rw [padBytes_length, BitVec.toNat_add, BitVec.toNat_ofNat]
  omega

/-- A byte list in a window that has room for it, zeros after it. -/
theorem toList_ofFn_getD {n : Nat} (p : List Byte) (h : p.length ≤ n) :
    (Vector.ofFn (n := n) fun i => p.getD i.val 0).toList = p ++ List.replicate (n - p.length) 0 := by
  refine List.ext_getElem (by simp; omega) fun i hi hi' => ?_
  rcases Nat.lt_or_ge i p.length with hp | hp
  · simp [hp, List.getElem_append_left]
  · simp [hp, List.getElem_append_right]

end Sys2Proof.Machine
end

section
/-! Serialisation and padded lengths (43_md4 R164, R165). -/

namespace Sys2Proof.Machine

/-- Settles O28: the padding fills up the last block, as an integer and modulo 2^64. -/
theorem paddedLengthIsWholeBlocks : Obligations.PaddedLengthIsWholeBlocks :=
  fun l => ⟨padBytes_length l ▸ length_add_padLength l, count_add_padding l⟩

/-- Settles O29: both directions go group by group, and within a group byte by byte. -/
theorem serAndDeserAreInverse : Obligations.SerAndDeserAreInverse := by
  refine ⟨fun h j k hj hk => ?_, fun d j hj => ?_, deser_ser, ser_deser⟩
  · rw [vget_ser h hj hk, le32Byte_eq]
  · rw [hashWord_deser d hj, leGroup_toNat d hj]

end Sys2Proof.Machine
end

section
/-! SUPPORT. Absorption and the blocks of the bytes absorbed (43_md4 R166 to R168). -/

namespace Sys2Proof.Machine

/-- Block `i` of a byte sequence. -/
def blockAt (M : List Byte) (i : Nat) : Window 64 := Vector.ofFn fun k => M.getD (64 * i + k.val) 0

theorem blocks_eq_map_blockAt (n : Nat) (M : List Byte) : blocks n M = (List.range n).map (blockAt M) := by
  induction n generalizing M with
  | zero => rfl
  | succ n ih =>
    have hdrop : blockAt (M.drop 64) = blockAt M ∘ Nat.succ := by
      funext i
      simp [blockAt, Nat.mul_succ, Nat.add_comm, Nat.add_left_comm]
    rw [blocks, ih, List.range_succ_eq_map, List.map_cons, List.map_map, hdrop]
    simp [blockAt]

/-- The accumulator after the whole blocks of a byte sequence, from `h` on (R168). -/
def foldBlocks (h : HashState) (M : List Byte) : HashState := (blocks (M.length / 64) M).foldl compress h

theorem md4Digest_eq (m : List Byte) : md4Digest m = ser (foldBlocks md4IV (padded m)) := rfl

/-- A whole block stays what it is when bytes are appended. -/
theorem blocks_append {n : Nat} {M : List Byte} (hn : 64 * n ≤ M.length) (ys : List Byte) :
    blocks n (M ++ ys) = blocks n M := by
  rw [blocks_eq_map_blockAt, blocks_eq_map_blockAt]
  refine List.map_congr_left fun i hi => ?_
  have hi : i < n := List.mem_range.1 hi
  rw [blockAt, blockAt]
  congr 1
  funext k
  rw [List.getD_append _ _ _ _ (by omega)]

theorem blocks_succ (n : Nat) (M : List Byte) : blocks (n + 1) M = blocks n M ++ [blockAt M n] := by
  simp [blocks_eq_map_blockAt, List.range_succ]

/-- One more byte that does not end a block. -/
theorem foldBlocks_concat_inside {h : HashState} {M : List Byte} {x : Byte} (hM : (M.length + 1) % 64 ≠ 0) :
    foldBlocks h (M ++ [x]) = foldBlocks h M := by
  have hlen : (M ++ [x]).length / 64 = M.length / 64 := by
    rw [List.length_append, List.length_singleton]
    omega
  rw [foldBlocks, hlen, blocks_append (by omega), ← foldBlocks]

/-- The byte that ends a block. -/
theorem foldBlocks_concat_boundary {h : HashState} {M : List Byte} {x : Byte} (hM : (M.length + 1) % 64 = 0) :
    foldBlocks h (M ++ [x]) = compress (foldBlocks h M) (blockAt (M ++ [x]) (M.length / 64)) := by
  have hlen : (M ++ [x]).length / 64 = M.length / 64 + 1 := by
    rw [List.length_append, List.length_singleton]
    omega
  rw [foldBlocks, hlen, blocks_succ, List.foldl_append, blocks_append (by omega), ← foldBlocks]
  rfl

/-- `m` has absorbed `M` from the accumulator `h` on, modulo whole blocks of COUNT: H is the fold over the whole blocks
of `M`, and BUF begins with the bytes after them (R41, R166). -/
structure HasAbsorbed (h : HashState) (M : List Byte) (m : MdState) : Prop where
  fill : m.count.toNat % 64 = M.length % 64
  h_eq : m.h = foldBlocks h M
  buf_eq : ∀ k, k < M.length % 64 → vget m.buf k = M.getD (64 * (M.length / 64) + k) 0

/-- A computation at a block boundary has absorbed nothing since its accumulator. -/
theorem HasAbsorbed.nil {m : MdState} (h : m.count.toNat % 64 = 0) : HasAbsorbed m.h [] m :=
  ⟨h, rfl, fun _ hk => absurd hk (Nat.not_lt_zero _)⟩

theorem HasAbsorbed.absorb_buf {h : HashState} {M : List Byte} {m : MdState} (hm : HasAbsorbed h M m) (x : Byte)
    {k : Nat} (hk : k ≤ M.length % 64) :
    vget (absorb m x).buf k = (M ++ [x]).getD (64 * (M.length / 64) + k) 0 := by
  have hbuf : (Machine.absorb m x).buf = vset m.buf (M.length % 64) x := congrArg (vset m.buf · x) hm.fill
  rw [hbuf]
  rcases Nat.lt_or_eq_of_le hk with hlt | rfl
  · rw [vget_vset_ne _ (by omega), hm.buf_eq k hlt, List.getD_append _ _ _ _ (by omega)]
  · rw [vget_vset_self _ (by omega), Nat.div_add_mod, List.getD_append_right _ _ _ _ le_rfl]
    simp

theorem HasAbsorbed.absorb {h : HashState} {M : List Byte} {m : MdState} (hm : HasAbsorbed h M m) (x : Byte) :
    HasAbsorbed h (M ++ [x]) (absorb m x) := by
  have hfill : (Machine.absorb m x).count.toNat % 64 = (M.length + 1) % 64 := by
    have := hm.fill
    have hcount : (Machine.absorb m x).count.toNat = (m.count.toNat + 1) % 2 ^ 64 := BitVec.toNat_add ..
    omega
  refine ⟨by rw [hfill, List.length_append, List.length_singleton], ?_, fun k hk => ?_⟩
  · have hh : (Machine.absorb m x).h =
        if (M.length + 1) % 64 = 0 then compress m.h (Machine.absorb m x).buf else m.h := by rw [← hfill]; rfl
    rw [hh]
    split
    · next hend =>
      have hblock : (Machine.absorb m x).buf = blockAt (M ++ [x]) (M.length / 64) :=
        vector_ext_vget fun k hk => by rw [hm.absorb_buf x (by omega), blockAt, vget_ofFn _ hk]
      rw [foldBlocks_concat_boundary hend, ← hm.h_eq, hblock]
    · next hend => rw [foldBlocks_concat_inside hend, hm.h_eq]
  · rw [List.length_append, List.length_singleton] at hk ⊢
    have hdiv : (M.length + 1) / 64 = M.length / 64 := by omega
    rw [hdiv, hm.absorb_buf x (by omega)]

theorem HasAbsorbed.absorbAll {h : HashState} {M : List Byte} {m : MdState} (hm : HasAbsorbed h M m)
    (xs : List Byte) : HasAbsorbed h (M ++ xs) (absorbAll m xs) := by
  induction xs generalizing M m with
  | nil => rwa [List.append_nil]
  | cons x xs ih => simpa using ih (hm.absorb x)

/-- The checks of MD_UPDATE (R175). -/
theorem checkUpdate_passes {s : State} {n : Nat} (hmdv : s.mdvFlag = true) (hn : n ≤ 64) : checkUpdate n s = none := by
  rw [checkUpdate, checkMdv, if_pos hmdv, if_pos hn]

theorem default_byte : (default : Byte) = 0 := rfl

/-- A byte of the first bytes of a window. -/
theorem getD_take_toList {n f k : Nat} (w : Window n) (hk : k < f) : (w.toList.take f).getD k 0 = vget w k := by
  simp [hk, vget, default_byte]

/-- Every MD state has absorbed the bytes that BUF holds below the fill level (R41). -/
theorem hasAbsorbed_buffered (m : MdState) :
    HasAbsorbed m.h (m.buf.toList.take (m.count.toNat % 64)) m := by
  have hlt : m.count.toNat % 64 < 64 := Nat.mod_lt _ (by decide)
  have hlen : (m.buf.toList.take (m.count.toNat % 64)).length = m.count.toNat % 64 := by simp; omega
  refine ⟨by rw [hlen, Nat.mod_mod], ?_, fun k hk => ?_⟩
  · rw [foldBlocks, hlen, Nat.div_eq_of_lt hlt]
    rfl
  · rw [hlen, Nat.mod_mod] at hk
    rw [hlen, Nat.div_eq_of_lt hlt, Nat.mul_zero, Nat.zero_add, getD_take_toList _ hk]

/-- What a state has absorbed does not depend on the stale bytes of BUF. -/
theorem HasAbsorbed.congr {h : HashState} {M : List Byte} {m m' : MdState} (hm : HasAbsorbed h M m)
    (hh : m.h = m'.h) (hcount : m.count = m'.count)
    (hbuf : ∀ k, k < m.count.toNat % 64 → vget m.buf k = vget m'.buf k) : HasAbsorbed h M m' where
  fill := hcount ▸ hm.fill
  h_eq := hh ▸ hm.h_eq
  buf_eq k hk := by rw [← hbuf k (hm.fill ▸ hk), hm.buf_eq k hk]

theorem blockAt_toList (b : Window 64) : blockAt b.toList 0 = b := by
  refine vector_ext_vget fun k hk => ?_
  rw [blockAt, vget_ofFn _ hk, Nat.mul_zero, Nat.zero_add, vget_eq_getD_toList, default_byte]

/-- A whole block absorbed at a block boundary: one compression, and BUF holds the block (R167, R176). -/
theorem absorbAll_block {m : MdState} (hm : m.count.toNat % 64 = 0) (b : Window 64) :
    absorbAll m b.toList = { h := compress m.h b, count := m.count + 64, buf := b } := by
  have hlen : b.toList.length = 64 := by simp
  have hh : (absorbAll m b.toList).h = compress m.h b := by
    have := ((HasAbsorbed.nil hm).absorbAll b.toList).h_eq
    rw [List.nil_append, foldBlocks, hlen, blocks_succ, blockAt_toList] at this
    exact this
  have hcount : (absorbAll m b.toList).count = m.count + 64 := by
    rw [absorbAll_count, hlen]
    rfl
  have hbuf : (absorbAll m b.toList).buf = b := by
    obtain ⟨xs, x, hb⟩ : ∃ xs x, b.toList = xs ++ [x] :=
      (List.eq_nil_or_concat' b.toList).resolve_left (List.ne_nil_of_length_pos (by omega))
    have hxs : xs.length = 63 := by simpa [hb] using hlen
    refine vector_ext_vget fun k hk => ?_
    have := ((HasAbsorbed.nil hm).absorbAll xs).absorb_buf x (k := k) (by rw [List.nil_append, hxs]; omega)
    rw [List.nil_append, hxs, ← hb, Nat.mul_zero, Nat.zero_add] at this
    rw [hb, absorbAll_append, absorbAll_cons, absorbAll_nil, this, vget_eq_getD_toList, default_byte]
  generalize absorbAll m b.toList = m' at hh hcount hbuf
  cases m'
  simp only at hh hcount hbuf
  rw [hh, hcount, hbuf]

end Sys2Proof.Machine
end

section
/-! Absorption (43_md4 R41, R166, R167). -/

namespace Sys2Proof.Machine

/-- Settles O23: what is buffered and what is absorbed are together less than two blocks, so H is folded over none of
them or over the first. -/
theorem updateCompressesAtBlockBoundary : Obligations.UpdateCompressesAtBlockBoundary := by
  intro m xs hxs fill
  have hfill : fill < 64 := Nat.mod_lt _ (by decide)
  have hbuffered : (m.buf.toList.take fill).length = fill := by simp; omega
  have hh := ((hasAbsorbed_buffered m).absorbAll xs).h_eq
  rw [foldBlocks, List.length_append, hbuffered] at hh
  refine ⟨fun hlt => ?_, fun hge => ?_⟩
  · rw [hh, Nat.div_eq_of_lt hlt]
    rfl
  · have hone : (fill + xs.length) / 64 = 0 + 1 := by omega
    have hblock : blockAt (m.buf.toList.take fill ++ xs) 0 =
        Vector.ofFn fun i => if i.val < fill then vget m.buf i.val else xs.getD (i.val - fill) 0 := by
      rw [blockAt]
      congr 1
      funext i
      rw [Nat.mul_zero, Nat.zero_add]
      split
      · next hi => rw [List.getD_append _ _ _ _ (by omega), getD_take_toList _ hi]
      · next hi => rw [List.getD_append_right _ _ _ _ (by omega), hbuffered]
    rw [hh, hone, blocks_succ, hblock]
    rfl

/-- Settles O31: both states have absorbed the same buffered bytes, and so the same bytes afterwards. -/
theorem staleBufferBytesNeverMatter : Obligations.StaleBufferBytesNeverMatter := by
  intro m m' xs hh hcount hbuf
  have hm := (hasAbsorbed_buffered m).absorbAll xs
  have hm' := ((hasAbsorbed_buffered m).congr hh hcount hbuf).absorbAll xs
  refine ⟨by rw [hm.h_eq, hm'.h_eq], by rw [absorbAll_count, absorbAll_count, hcount], fun k hk => ?_⟩
  rw [hm.fill] at hk
  rw [hm.buf_eq k hk, hm'.buf_eq k hk]

end Sys2Proof.Machine
end

section
/-! The completion of the MD commands (43_md4 R171 to R179), and known answers. -/

namespace Sys2Proof.Machine

/-- Settles O19: MD_INIT has no check, and `md4IV` is the initial value of R160. -/
theorem mdInitCompletes : Obligations.MdInitCompletes :=
  fun _ _ hp => exec_completes_with hp rfl

/-- Settles O20: H is the captured DIN deserialised, and serialising it again gives DIN. -/
theorem mdLoaddigCompletes : Obligations.MdLoaddigCompletes := by
  intro s o hp
  refine ⟨deser o.din, exec_completes_with hp rfl, fun j hj => ?_, ser_deser o.din⟩
  rw [hashWord_deser o.din hj, leGroup_toNat o.din hj]

/-- Settles O21: the three checks of MD_SETCNT are the three hypotheses. -/
theorem mdSetcntCompletes : Obligations.MdSetcntCompletes := by
  intro s o hp hmdv hfill harg
  refine exec_completes_with hp ?_
  simp [commandCheck, checkSetcnt, checkMdv, hmdv, hfill, harg]

/-- Settles O22: COUNT grows by the number of bytes taken from MSG. -/
theorem mdUpdateCompletes : Obligations.MdUpdateCompletes := by
  intro s o n hp hmdv hn
  have hcheck : commandCheck (.mdUpdate n) o s = none := checkUpdate_passes hmdv hn
  refine ⟨_, exec_completes_with hp hcheck, rfl, ?_⟩
  have hlen : (o.msg.toList.take n).length = n := by simp [hn]
  rw [commandEffect, State.setMd_md, absorbAll_count, hlen]

/-- Settles O24: MSG is the block. -/
theorem updateOfAWholeBlock : Obligations.UpdateOfAWholeBlock := by
  intro s o hp hmdv hfill
  have hall : o.msg.toList.take 64 = o.msg.toList := List.take_of_length_le (by simp)
  have hcheck : commandCheck (.mdUpdate 64) o s = none := checkUpdate_passes hmdv le_rfl
  rw [exec_completes_with hp hcheck, commandEffect, hall, absorbAll_block hfill, State.complete, State.setMd]

/-- Settles O25: COUNT grows by the padding's length, which fills the last block. -/
theorem mdFinalCompletes : Obligations.MdFinalCompletes := by
  intro s o hp hmdv
  have hcheck : commandCheck .mdFinal o s = none := if_pos hmdv
  have hcount : (commandEffect .mdFinal o s).md.count = s.md.count + BitVec.ofNat 64 (padBytes s.md.count).length :=
    absorbAll_count ..
  refine ⟨_, exec_completes_with hp hcheck, rfl, hcount, ?_⟩
  rw [hcount, count_add_padding]

/-- Settles O26: the padding fits PADLEN and the window. -/
theorem mdPadgenCompletes : Obligations.MdPadgenCompletes := by
  intro s o hp
  refine ⟨_, _, exec_completes_with hp rfl, ?_, ?_⟩
  · rw [commandEffect, State.setPadding_padlen, padlen_toNat, padBytes_length]
  · have := padLength_le o.arg
    exact toList_ofFn_getD (padBytes o.arg) (by rw [padBytes_length]; omega)

/-- Settles O30: closed computations, evaluated by the model's own functions. -/
theorem knownAnswers : Obligations.KnownAnswers := by
  unfold Obligations.KnownAnswers
  decide +kernel

end Sys2Proof.Machine
end

section
/-! SUPPORT. Commands run to completion one after the other, from an idle state (60_exceptions R201, 70_reset R251). -/

namespace Sys2Proof.Machine

/-- Nothing pending and no error recorded: the next command is issued (R201). -/
structure State.Idle (s : State) : Prop where
  no_pending : s.pending = none
  no_error : s.error = none

/-- A command whose checks pass runs to completion, its effect applied to the registers' own values (R201, R251). -/
theorem runToCompletion_eq {i : Instr} {s : State} (hs : s.Idle) (hc : commandCheck i s.operands s = none) :
    runToCompletion i s = some
      (commandEffect i s.operands { s with doneFlag := false, pending := some ⟨i, s.operands⟩ }).complete := by
  obtain ⟨hp, he⟩ := hs
  have hcheck : commandCheck i s.operands { s with doneFlag := false, pending := some ⟨i, s.operands⟩ } = none := by
    rw [commandCheck_eq_firstFailing] at hc ⊢
    exact hc
  rw [runToCompletion, exec_accepted hp he hc]
  simp only
  rw [exec_completes_with rfl hcheck]

/-- An MD4 computation under way in an idle state. -/
structure Computing (s : State) (m : MdState) : Prop where
  idle : s.Idle
  mdv : s.mdvFlag = true
  md : s.md = m

theorem run_mdInit {s : State} (hs : s.Idle) :
    ∃ t, runToCompletion .mdInit s = some t ∧ Computing t ⟨md4IV, 0, s.md.buf⟩ :=
  ⟨_, runToCompletion_eq hs rfl, ⟨rfl, hs.no_error⟩, rfl, rfl⟩

theorem run_mdLoaddig {s : State} (hs : s.Idle) :
    ∃ t, runToCompletion .mdLoaddig s = some t ∧ Computing t ⟨deser s.operands.din, 0, s.md.buf⟩ ∧
      t.operands = s.operands :=
  ⟨_, runToCompletion_eq hs rfl, ⟨⟨rfl, hs.no_error⟩, rfl, rfl⟩, rfl⟩

/-- MD_SETCNT run at a block boundary with a multiple of 64 in ARG (R173). -/
theorem run_mdSetcnt {s : State} {m : MdState} (hs : Computing s m) (hfill : m.count.toNat % 64 = 0)
    (harg : s.operands.arg.toNat % 64 = 0) :
    ∃ t, runToCompletion .mdSetcnt s = some t ∧ Computing t { m with count := s.operands.arg } := by
  obtain ⟨hidle, hmdv, rfl⟩ := hs
  have hcheck : commandCheck .mdSetcnt s.operands s = none := by
    simp [commandCheck, checkSetcnt, checkMdv, hmdv, hfill, harg]
  exact ⟨_, runToCompletion_eq hidle hcheck, ⟨rfl, hidle.no_error⟩, hmdv, rfl⟩

/-- MD_UPDATE run with a chunk placed in MSG (R175). -/
theorem run_mdUpdate {s : State} {m : MdState} (hs : Computing s m) (c : Chunk) (hn : c.n ≤ 64) :
    ∃ t, runToCompletion (.mdUpdate c.n) { s with operands := { s.operands with msg := c.msg } } = some t ∧
      Computing t (absorbAll m c.bytes) := by
  obtain ⟨hidle, hmdv, rfl⟩ := hs
  exact ⟨_, runToCompletion_eq ⟨hidle.no_pending, hidle.no_error⟩ (checkUpdate_passes hmdv hn),
    ⟨rfl, hidle.no_error⟩, hmdv, rfl⟩

theorem run_mdFinal {s : State} {m : MdState} (hs : Computing s m) :
    ∃ t, runToCompletion .mdFinal s = some t ∧ Computing t (absorbAll m (padBytes m.count)) := by
  obtain ⟨hidle, hmdv, rfl⟩ := hs
  exact ⟨_, runToCompletion_eq hidle (if_pos hmdv), ⟨rfl, hidle.no_error⟩, hmdv, rfl⟩

/-- Chunks absorbed one after the other are absorbed as one byte sequence (R168). -/
theorem run_absorbChunks {cs : List Chunk} (hcs : ∀ c ∈ cs, c.n ≤ 64) {s : State} {m : MdState}
    (hs : Computing s m) :
    ∃ t, absorbChunks cs s = some t ∧ Computing t (absorbAll m (cs.flatMap Chunk.bytes)) := by
  induction cs generalizing s m with
  | nil => exact ⟨s, rfl, hs⟩
  | cons c cs ih =>
    obtain ⟨u, hu, hmd⟩ := run_mdUpdate hs c (hcs c List.mem_cons_self)
    obtain ⟨t, ht, hmd⟩ := ih (fun c' hc' => hcs c' (List.mem_cons_of_mem c hc')) hmd
    refine ⟨t, ?_, ?_⟩
    · rw [absorbChunks, hu, Option.bind_some, ht]
    · rwa [List.flatMap_cons, absorbAll_append]

/-- The chunks of a message absorbed and finalised (R168, R185 steps 4 and 5). -/
theorem run_chunks_mdFinal {cs : List Chunk} (hcs : ∀ c ∈ cs, c.n ≤ 64) {s : State} {m : MdState}
    (hs : Computing s m) :
    ∃ t, (absorbChunks cs s).bind (runToCompletion .mdFinal) = some t ∧
      t.md = absorbAll (absorbAll m (cs.flatMap Chunk.bytes))
        (padBytes (m.count + BitVec.ofNat 64 (cs.flatMap Chunk.bytes).length)) := by
  obtain ⟨u, hu, hmd⟩ := run_absorbChunks hcs hs
  obtain ⟨t, ht, hmd⟩ := run_mdFinal hmd
  rw [absorbAll_count] at hmd
  exact ⟨t, by rw [hu, Option.bind_some, ht], hmd.md⟩

end Sys2Proof.Machine
end

section
/-! SUPPORT. The digest of a message resumed after whole blocks (43_md4 R168, R169). -/

namespace Sys2Proof.Machine

/-- Resuming after the whole blocks `Q`, absorbing `X` and the padding for COUNT gives the digest of `Q ‖ X`,
whatever the buffer held (R168, R169). -/
theorem ser_resume_eq_md4Digest {Q : List Byte} (hQ : Q.length % 64 = 0) (X : List Byte) {m : MdState}
    (hh : m.h = foldBlocks md4IV Q) (hcount : m.count = BitVec.ofNat 64 Q.length) :
    ser (absorbAll (absorbAll m X) (padBytes (m.count + BitVec.ofNat 64 X.length))).h = md4Digest (Q ++ X) := by
  have hm : HasAbsorbed md4IV Q m := by
    refine ⟨?_, hh, fun k hk => absurd hk (by omega)⟩
    rw [hcount, BitVec.toNat_ofNat]
    omega
  have hend := ((hm.absorbAll X).absorbAll (padBytes (m.count + BitVec.ofNat 64 X.length))).h_eq
  rw [hend, md4Digest_eq, padded, hcount, ← BitVec.ofNat_add, List.length_append]

theorem padded_length_mod (m : List Byte) : (padded m).length % 64 = 0 := by
  have h := length_add_padLength (BitVec.ofNat 64 m.length)
  rw [padded, List.length_append, padBytes_length]
  rw [BitVec.toNat_ofNat] at h
  omega

/-- The accumulator that absorbs `Q` from IV on at a block boundary is the fold over the blocks of `Q`. -/
theorem absorbAll_h_eq_foldBlocks (h : HashState) (buf : Window 64) (Q : List Byte) :
    (absorbAll ⟨h, 0, buf⟩ Q).h = foldBlocks h Q :=
  ((HasAbsorbed.nil (m := ⟨h, 0, buf⟩) rfl).absorbAll Q).h_eq

end Sys2Proof.Machine
end

section
/-! Digests and the forging procedure (43_md4 R168, R169, R185, R187). -/

namespace Sys2Proof.Machine

/-- Settles O32: the digest resumed after no block. -/
theorem finalDigestIsMd4 : Obligations.FinalDigestIsMd4 := by
  intro s cs hp he hcs
  obtain ⟨u, hu, hmd⟩ := run_mdInit ⟨hp, he⟩
  obtain ⟨t, ht, hdigest⟩ := run_chunks_mdFinal hcs hmd
  refine ⟨t, by rw [hu, Option.bind_some, ht], ?_⟩
  rw [hdigest]
  exact ser_resume_eq_md4Digest (Q := []) rfl _ rfl rfl

/-- Settles O33: `P ‖ Pad(len(P))` is a sequence of whole blocks. -/
theorem lengthExtension : Obligations.LengthExtension := by
  intro P X buf buf' hp m
  have hcount : m.count = BitVec.ofNat 64 (padded P).length + BitVec.ofNat 64 X.length := absorbAll_count ..
  rw [hcount]
  exact ser_resume_eq_md4Digest (padded_length_mod P) X (absorbAll_h_eq_foldBlocks md4IV buf (padded P)) rfl

/-- Settles O34: MD_LOADDIG resumes at the accumulator after `K ‖ Pad(len(K))`, and MD_SETCNT at its length. -/
theorem forgedDigestIsGenuine : Obligations.ForgedDigestIsGenuine := by
  intro s K cs hp he hcs hdin harg
  have hwhole : s.operands.arg.toNat % 64 = 0 := by
    have := padded_length_mod K
    rw [harg, BitVec.toNat_ofNat]
    omega
  have hacc : deser s.operands.din = foldBlocks md4IV (padded K) := by rw [hdin, md4Digest_eq, deser_ser]
  obtain ⟨u, hu, hload, hops⟩ := run_mdLoaddig ⟨hp, he⟩
  obtain ⟨v, hv, hset⟩ := run_mdSetcnt hload rfl (hops ▸ hwhole)
  obtain ⟨t, ht, hdigest⟩ := run_chunks_mdFinal hcs hset
  refine ⟨t, ?_, ?_⟩
  · rw [runAll, hu, Option.bind_some, runAll, hv, Option.bind_some, runAll, Option.bind_some, ht]
  · rw [hdigest]
    exact ser_resume_eq_md4Digest (padded_length_mod K) _ hacc (hops ▸ harg)

end Sys2Proof.Machine
end

section
/-! SUPPORT. KS_INIT and KS_STEPs run one after the other (42_keyschedule R145). -/

namespace Sys2Proof.Machine

/-- An idle state in which the first `n` Words of the key's expansion are computed. -/
structure ExpandedTo (key : Window 16) (n : Nat) (s : State) : Prop where
  idle : s.Idle
  kcount : s.kcount.toNat = n
  keyWords : ∀ j < 4, vget s.rk j = keyWord key j
  follows : FollowsExpansion s.rk n

theorem run_ksInit {s : State} (hs : s.Idle) (hlen : s.operands.keyLen = 16) :
    ∃ t, runToCompletion .ksInit s = some t ∧ ExpandedTo s.operands.key 4 t :=
  ⟨_, runToCompletion_eq hs (if_pos hlen), ⟨rfl, hs.no_error⟩, rfl, fun _ hj => keyWords_vget s.operands.key s.rk hj,
    followsExpansion_four _⟩

theorem run_ksExpand {s : State} (hs : s.Idle) (hlen : s.operands.keyLen = 16) :
    ∃ t, runToCompletion .ksExpand s = some t ∧ ExpandedTo s.operands.key 44 t := by
  have hcheck : commandCheck .ksExpand s.operands s = none := if_pos hlen
  refine ⟨_, runToCompletion_eq hs hcheck, ⟨rfl, hs.no_error⟩, rfl, fun j hj => ?_, ?_⟩
  · exact expandedKeys_key s.operands.key hj
  · exact expandedKeys_follows s.operands.key

/-- The whole expansion of a key is determined. -/
theorem ExpandedTo.rk_unique {key : Window 16} {s t : State} (hs : ExpandedTo key 44 s) (ht : ExpandedTo key 44 t) :
    s.rk = t.rk := by
  refine vector_ext_vget fun i hi => hs.follows.vget_unique ht.follows (fun j hj => ?_) hi
  rw [hs.keyWords j hj, ht.keyWords j hj]

theorem run_ksStep {key : Window 16} {n : Nat} {s : State} (hs : ExpandedTo key n s) (h4 : 4 ≤ n) (hn : n < 44) :
    ∃ t, runToCompletion .ksStep s = some t ∧ ExpandedTo key (n + 1) t := by
  obtain ⟨hidle, rfl, hfirst, hfollows⟩ := hs
  refine ⟨_, runToCompletion_eq hidle (if_pos (by omega)), ⟨rfl, hidle.no_error⟩, ?_, fun j hj => ?_, hfollows.vset_next hn⟩
  · exact kcount_succ_toNat hn
  · have hne : s.kcount.toNat ≠ j := by omega
    exact (vget_vset_ne s.rk hne _).trans (hfirst j hj)

theorem run_ksSteps {key : Window 16} {k n : Nat} (h4 : 4 ≤ n) (hn : n + k ≤ 44) {s : State}
    (hs : ExpandedTo key n s) :
    ∃ t, runAll (List.replicate k .ksStep) s = some t ∧ ExpandedTo key (n + k) t := by
  induction k generalizing n s with
  | zero => exact ⟨s, rfl, hs⟩
  | succ k ih =>
    obtain ⟨u, hu, hnext⟩ := run_ksStep hs h4 (by omega)
    obtain ⟨t, ht, hend⟩ := ih (by omega) (by omega) hnext
    refine ⟨t, ?_, by rwa [Nat.add_comm k 1, ← Nat.add_assoc]⟩
    rw [List.replicate_succ, runAll, hu, Option.bind_some, ht]

end Sys2Proof.Machine
end

section
/-! KS_EXPAND against KS_INIT and KS_STEPs (42_keyschedule R145). -/

namespace Sys2Proof.Machine

/-- Settles O35: both leave Words that begin with the key's and follow the expansion, which determines them. -/
theorem expandIsInitAndFortySteps : Obligations.ExpandIsInitAndFortySteps := by
  intro s hp he hlen
  obtain ⟨t, ht, hexpand⟩ := run_ksExpand ⟨hp, he⟩ hlen
  obtain ⟨v, hv, hinit⟩ := run_ksInit ⟨hp, he⟩ hlen
  obtain ⟨u, hu, hsteps⟩ := run_ksSteps (k := 40) (by decide) (by decide) hinit
  refine ⟨t, u, ?_, ?_, hexpand.rk_unique hsteps, BitVec.eq_of_toNat_eq hexpand.kcount,
    BitVec.eq_of_toNat_eq hsteps.kcount⟩
  · rw [runAll, ht]
    rfl
  · rw [runAll, hv, Option.bind_some, hu]

end Sys2Proof.Machine
end

section
/-! SUPPORT. The register map offset by offset (10_state R24), a refused read (20_memory R66), and the registers as
numbers (10_state R25 to R31, R39). -/

namespace Sys2Proof.Machine

/-- A refused read returns 0 and records its error (R66, R203). -/
theorem step_read_refused {s : State} {off : Offset} {n : Nat} {rest : List Move} {e : ErrorCode}
    (h : s.Presents (.read off n) rest) (hr : resolve false off n s.busy = .error e) :
    step s = .next { s with
      schedule := rest, error := some (s.error.getD e), replies := ⟨off, n, 0⟩ :: s.replies } := by
  rw [step_read h]
  simp [busRead, hr, State.raise_eq, State.reply]

/-- The rows of the register map do not overlap, and lie in the window (R24). -/
theorem registerMap_disjoint : ∀ r ∈ registerMap, ∀ q ∈ registerMap,
    r.base < q.base + q.size → q.base < r.base + r.size → r = q := by decide

theorem registerMap_inWindow : ∀ r ∈ registerMap, r.base + r.size ≤ 1024 := by decide

theorem registerMap_rk : ∀ r ∈ registerMap, r.place = .rk → r.base = 0x200 := by decide

/-- The row of an offset is the one row whose bytes it is among (R24). -/
theorem regionAt_eq_some_iff (off : Offset) (r : Region) :
    regionAt off = some r ↔ r ∈ registerMap ∧ r.base ≤ off.toNat ∧ off.toNat < r.base + r.size := by
  have sound {q : Region} (h : regionAt off = some q) :
      q ∈ registerMap ∧ q.base ≤ off.toNat ∧ off.toNat < q.base + q.size := by
    have hin := List.find?_some h
    rw [Bool.and_eq_true, decide_eq_true_eq, decide_eq_true_eq] at hin
    exact ⟨List.mem_of_find?_eq_some h, hin⟩
  refine ⟨sound, fun ⟨hr, hlo, hhi⟩ => ?_⟩
  cases hq : regionAt off with
  | none => simpa [hlo, hhi] using List.find?_eq_none.1 hq r hr
  | some q =>
    obtain ⟨hqmem, hqlo, hqhi⟩ := sound hq
    rw [registerMap_disjoint q hqmem r hr (by omega) (by omega)]

/-- Every byte of a place is held at its own offset (R24). -/
theorem byteAt_place {r : Region} (hr : r ∈ registerMap) {k : Nat} (hk : k < r.size) (s : State) :
    s.byteAt (BitVec.ofNat 10 (r.base + k)) = some (placeByte r.place k s) := by
  have hoff : (BitVec.ofNat 10 (r.base + k)).toNat = r.base + k := by
    have := registerMap_inWindow r hr
    exact Nat.mod_eq_of_lt (by omega)
  have hreg : regionAt (BitVec.ofNat 10 (r.base + k)) = some r := by
    rw [regionAt_eq_some_iff, hoff]
    exact ⟨hr, by omega, by omega⟩
  rw [State.byteAt, hreg, Option.map_some, hoff, Nat.add_sub_cancel_left]

theorem valueAt_cmd (s : State) : s.valueAt 0x000 4 = 0 :=
  valueAt_of_lanes (x := 0) rfl rfl rfl fun k => by simp [placeByte, laneByte]

theorem valueAt_countHi (s : State) : s.valueAt 0x018 4 = (s.md.count.extractLsb' 32 32).toNat :=
  valueAt_of_lanes rfl rfl rfl fun _ => rfl

theorem valueAt_countLo (s : State) : s.valueAt 0x01C 4 = (s.md.count.extractLsb' 0 32).toNat :=
  valueAt_of_lanes rfl rfl rfl fun _ => rfl

theorem valueAt_argHi (s : State) : s.valueAt 0x020 4 = (s.operands.arg.extractLsb' 32 32).toNat :=
  valueAt_of_lanes rfl rfl rfl fun _ => rfl

theorem valueAt_argLo (s : State) : s.valueAt 0x024 4 = (s.operands.arg.extractLsb' 0 32).toNat :=
  valueAt_of_lanes rfl rfl rfl fun _ => rfl

/-- A 64-bit register from its two halves (R31, R39). -/
theorem halves_toNat (x : Word64) :
    (x.extractLsb' 32 32).toNat * 2 ^ 32 + (x.extractLsb' 0 32).toNat = x.toNat := by
  simp only [BitVec.extractLsb'_toNat, Nat.shiftRight_eq_div_pow]
  omega

theorem ofBool_toNat (b : Bool) : (BitVec.ofBool b).toNat = if b then 1 else 0 := by cases b <;> rfl

/-- STATUS as the sum of its fields (R25). -/
theorem statusWord_toNat (s : State) : s.statusWord.toNat =
    (if s.busy then 1 else 0) + (if s.doneFlag then 2 else 0) + (if s.errFlag then 4 else 0) +
      (if s.ksv then 8 else 0) + (if s.mdvFlag then 16 else 0) + 256 * s.errCode.toNat := by
  simp only [State.statusWord, append_toNat, ofBool_toNat]
  split_ifs <;> simp <;> omega

theorem State.busy_eq_true_iff (s : State) : s.busy = true ↔ s.pending ≠ none := Option.isSome_iff_ne_none

theorem State.ksv_eq_true_iff (s : State) : s.ksv = true ↔ s.kcount.toNat = 44 := by
  rw [State.ksv, beq_iff_eq, ← BitVec.toNat_inj]
  rfl

/-- ERRCODE is the byte of STATUS above its flags (R25). -/
theorem statusWord_errCode (s : State) : s.statusWord.toNat / 2 ^ 8 = s.errCode.toNat := by
  rw [statusWord_toNat]
  split_ifs <;> omega

theorem errorCode_mem_table (e : ErrorCode) : (e, e.code.toNat) ∈ errorCodeTable := by
  cases e <;> decide

theorem ctrlWord_toNat (s : State) : s.ctrlWord.toNat = if s.ieFlag then 1 else 0 := by
  rw [State.ctrlWord, BitVec.toNat_setWidth_of_le (by decide), ofBool_toNat]

end Sys2Proof.Machine
end

section
/-! Refused accesses, reads while BUSY = 0, and what registers and windows read as (10_state, 20_memory). -/

namespace Sys2Proof.Machine

/-- Settles O36: each of the causes is one of the access checks. -/
theorem badAccessesAreRefused : Obligations.BadAccessesAreRefused := by
  intro s off n v rest
  refine ⟨fun hbad h => step_read_refused h ?_, fun hbad h => step_write_refused h ?_⟩
  · rcases hbad with hsize | ⟨rfl, halign⟩ | hmap
    · exact resolve_illegal_size hsize
    · exact resolve_misaligned halign
    · exact resolve_unmapped hmap
  · rcases hbad with hsize | ⟨rfl, halign⟩ | hmap | hro | ⟨hcmd, rfl⟩
    · exact resolve_illegal_size hsize
    · exact resolve_misaligned halign
    · exact resolve_unmapped hmap
    · exact resolve_readOnly hro
    · exact resolve_cmd_byte hcmd

/-- Settles O40: with BUSY = 0 the only unspecified bytes are those of RK from KCOUNT on. -/
theorem readsWhileIdle : Obligations.ReadsWhileIdle := by
  intro s off n rest hp hl hmap hrk h
  obtain ⟨r, hr, -⟩ := resolve_read (busy := s.busy) hl hmap
  refine step_read_specified hl hr ?_ h
  have hb : s.busy = false := by simp [State.busy, hp]
  by_cases hplace : r.place = .rk
  · obtain ⟨hmem, hlo, -⟩ := (regionAt_eq_some_iff off r).1 hr
    have hbase := registerMap_rk r hmem hplace
    have := hrk (hbase ▸ hlo)
    simp [readUnspecified, hb, hbase, this]
  · simp [readUnspecified, hb, hplace]

/-- Settles O41: the offsets of RK are mapped, and every legal read of a mapped offset leaves the block as it is. -/
theorem unfinishedRoundKeysReadAnyValue : Obligations.UnfinishedRoundKeysReadAnyValue := by
  intro s off n rest _ hl hlo hhi _ h
  exact step_read_mapped hl (by omega) h

/-- Settles O42: each register reads as its word, and each word is the sum of its fields. -/
theorem registersReadTheirFields : Obligations.RegistersReadTheirFields := by
  intro s
  refine ⟨valueAt_cmd s, ?_, ?_, ?_, ?_, ?_, ?_, ?_, fun he => ?_, fun e he => ⟨_, errorCode_mem_table e, ?_⟩⟩
  · rw [valueAt_status, statusWord_toNat]
    simp only [State.busy_eq_true_iff, State.errFlag_eq_true_iff, State.ksv_eq_true_iff]
  · rw [valueAt_ctrl, ctrlWord_toNat]
  · exact (valueAt_keyLen s).trans (BitVec.toNat_setWidth_of_le (by decide))
  · exact (valueAt_kcount s).trans (BitVec.toNat_setWidth_of_le (by decide))
  · exact (valueAt_padlen s).trans (BitVec.toNat_setWidth_of_le (by decide))
  · rw [valueAt_countHi, valueAt_countLo, halves_toNat]
  · rw [valueAt_argHi, valueAt_argLo, halves_toNat]
  · rw [valueAt_status, statusWord_errCode, State.errCode, he]
    rfl
  · rw [valueAt_status, statusWord_errCode, State.errCode, he]

/-- Settles O43: each window is a place of the map. -/
theorem windowsReadTheirBytes : Obligations.WindowsReadTheirBytes := by
  intro s
  refine ⟨fun k hk => ⟨?opa, ?opb, ?res⟩, fun k hk => ⟨?key, ?din⟩, fun j k hj hk => ?dout, fun k hk => ?msg,
    fun k hk => ?pad, fun i k hi hk => ?rk⟩
  case opa => exact byteAt_place (r := ⟨.opa, 0x030, 4, true, true⟩) (by decide) hk s
  case opb => exact byteAt_place (r := ⟨.opb, 0x034, 4, true, true⟩) (by decide) hk s
  case res => exact byteAt_place (r := ⟨.res, 0x038, 4, false, false⟩) (by decide) hk s
  case key =>
    rw [← vget_eq_getElem]
    exact byteAt_place (r := ⟨.key, 0x040, 16, true, true⟩) (by decide) hk s
  case din =>
    rw [← vget_eq_getElem]
    exact byteAt_place (r := ⟨.din, 0x050, 16, true, true⟩) (by decide) hk s
  case dout =>
    rw [← le32Byte_eq, ← vget_ser s.md.h hj hk, Nat.add_assoc]
    exact byteAt_place (r := ⟨.dout, 0x060, 16, false, false⟩) (by decide) (k := 4 * j + k) (by simp; omega) s
  case msg =>
    rw [← vget_eq_getElem]
    exact byteAt_place (r := ⟨.msg, 0x080, 64, true, true⟩) (by decide) hk s
  case pad =>
    rw [← vget_eq_getElem]
    exact byteAt_place (r := ⟨.pad, 0x100, 128, false, false⟩) (by decide) hk s
  case rk =>
    have hword : (4 * i + k) / 4 = i := by omega
    have hbyte : (4 * i + k) % 4 = k := by omega
    rw [Nat.add_assoc, byteAt_place (r := ⟨.rk, 0x200, 176, false, false⟩) (by decide) (k := 4 * i + k)
      (by simp; omega) s, placeByte, hword, hbyte, vget_eq_getElem _ hi]

/-- Settles O48: each register reads as a word that is 0 in every reset state. -/
theorem resetStateReadsAsTheTableSays : Obligations.ResetStateReadsAsTheTableSays := by
  intro c
  refine ⟨?status, (valueAt_ctrl _).trans rfl, (valueAt_keyLen _).trans rfl, (valueAt_kcount _).trans rfl,
    (valueAt_padlen _).trans rfl, ?countHi, ?countLo, rfl, rfl⟩
  case status => exact (valueAt_status _).trans (congrArg _ (statusWord_eq_zero rfl rfl rfl rfl rfl))
  case countHi => rw [valueAt_countHi]; simp [State.resetWith]
  case countLo => rw [valueAt_countLo]; simp [State.resetWith]

end Sys2Proof.Machine
end

section
/-! SUPPORT. Writes to STATUS, CTRL and KEY_LEN: only lane 3 holds bits that a write can change (10_state R25 to R27,
20_memory R65, R68). -/

namespace Sys2Proof.Machine

/-- The registers whose writable bits are in bits 7:0. -/
abbrev Place.LowLane (p : Place) : Prop := p = .status ∨ p = .ctrl ∨ p = .keyLen

theorem writeByte_other_lane {p : Place} (hp : p.LowLane) {i : Nat} (hi : i ≠ 3) (b : Byte) (s : State) :
    s.writeByte p i b = s := by
  rcases hp with rfl | rfl | rfl <;>
    simp [State.writeByte, State.writeStatusByte, State.writeCtrlByte, Operands.writeByte, hi]

theorem writePlace_byte {p : Place} (hp : p.LowLane) (i : Nat) (v : Word32) (s : State) :
    s.writePlace p i 1 v = if i = 3 then s.writeByte p 3 (v.extractLsb' 0 8) else s := by
  rw [State.writePlace, if_pos rfl]
  split
  · next h => rw [h]
  · next h => rw [writeByte_other_lane hp h]

theorem writePlace_word {p : Place} (hp : p.LowLane) (v : Word32) (s : State) :
    s.writePlace p 0 4 v = s.writeByte p 3 (v.extractLsb' 0 8) := by
  have hrange : List.range 4 = [0, 1, 2, 3] := rfl
  simp only [State.writePlace, hrange, List.foldl_cons, List.foldl_nil, Nat.zero_add]
  rw [if_neg (by decide), writeByte_other_lane hp (i := 0) (by decide), writeByte_other_lane hp (i := 1) (by decide),
    writeByte_other_lane hp (i := 2) (by decide)]
  rfl

/-- STATUS, CTRL and KEY_LEN are 4-byte registers at these offsets (R24). -/
theorem registerMap_lowLane : ∀ r ∈ registerMap, r.place.LowLane → r.size = 4 ∧
    (r.place ≠ .keyLen ∧ (r.base = 0x004 ∨ r.base = 0x008) ∨ r.place = .keyLen ∧ r.base = 0x00C) := by decide

/-- A legal write to STATUS or CTRL, or to KEY_LEN while BUSY = 0, writes the low byte of the value to lane 3 if the
access covers it, and does nothing else. -/
theorem step_write_lowLane {s : State} {off : Offset} {n : Nat} {v : Word32} {rest : List Move} {r : Region}
    (h : s.Presents (.write off n v) rest) (hl : LegalSize off n) (hr : regionAt off = some r) (hp : r.place.LowLane)
    (hb : r.place = .keyLen → s.pending = none) :
    step s = .next (if n = 4 ∨ off.toNat % 4 = 3 then
      ({ s with schedule := rest } : State).writeByte r.place 3 (v.extractLsb' 0 8)
      else { s with schedule := rest }) := by
  obtain ⟨hmem, hlo, hhi⟩ := (regionAt_eq_some_iff off r).1 hr
  obtain ⟨hsize, hkind⟩ := registerMap_lowLane r hmem hp
  have hidx : off.toNat - r.base = off.toNat % 4 := by omega
  have hopen : StatusOrCtrl off ∨ (s.busy = false ∧ GuardedStorage off) := by
    rcases hkind with ⟨-, hbase⟩ | ⟨hk, hbase⟩
    · exact .inl (by omega)
    · exact .inr ⟨by simp [State.busy, hb hk], .inl (by omega)⟩
  obtain ⟨r', hr', hc, hres⟩ := resolve_write hl hopen
  obtain rfl : r = r' := Option.some.inj (hr.symm.trans hr')
  rw [step_write_stored h hres hc, hidx]
  rcases hl with rfl | ⟨rfl, halign⟩
  · rw [writePlace_byte hp]
    simp
  · rw [halign, writePlace_word hp, if_pos (.inl rfl)]

/-- A byte written to lane 3 of STATUS (R25). -/
theorem writeByte_status (s : State) (v : Word32) : s.writeByte .status 3 (v.extractLsb' 0 8) =
    { s with doneFlag := s.doneFlag && !v.getLsbD 1, error := if v.getLsbD 2 then none else s.error } := by
  have hbit {k : Nat} (hk : k < 8) : (v.extractLsb' 0 8).getLsbD k = v.getLsbD k := by simp [hk]
  simp only [State.writeByte, State.writeStatusByte, hbit (k := 1) (by decide), hbit (k := 2) (by decide)]
  cases v.getLsbD 1 <;> cases v.getLsbD 2 <;> simp [State.clearDone, State.clearError]

theorem writeByte_ctrl (s : State) (v : Word32) :
    s.writeByte .ctrl 3 (v.extractLsb' 0 8) = { s with ieFlag := v.getLsbD 0 } := by
  simp [State.writeByte, State.writeCtrlByte]

theorem writeByte_keyLen (s : State) (v : Word32) : s.writeByte .keyLen 3 (v.extractLsb' 0 8) =
    { s with operands := { s.operands with keyLen := BitVec.ofNat 8 v.toNat } } := rfl

theorem regionAt_control : ∀ off : Offset,
    (off.toNat / 4 = 1 → ∃ r ∈ regionAt off, r.place = .status) ∧
    (off.toNat / 4 = 2 → ∃ r ∈ regionAt off, r.place = .ctrl) ∧
    (off.toNat / 4 = 3 → ∃ r ∈ regionAt off, r.place = .keyLen) := by decide +kernel

/-- A legal write to STATUS clears DONE and the error record as its bits 1 and 2 say, if it covers lane 3 (R25). -/
theorem step_write_status {s : State} {off : Offset} {n : Nat} {v : Word32} {rest : List Move}
    (h : s.Presents (.write off n v) rest) (hl : LegalSize off n) (hoff : off.toNat / 4 = 1) :
    step s = .next (if n = 4 ∨ off.toNat % 4 = 3 then { s with
      schedule := rest
      doneFlag := s.doneFlag && !v.getLsbD 1
      error := if v.getLsbD 2 then none else s.error } else { s with schedule := rest }) := by
  obtain ⟨r, hr, hp⟩ := (regionAt_control off).1 hoff
  rw [step_write_lowLane h hl hr (.inl hp) (fun hk => by simp [hp] at hk), hp, writeByte_status]

/-- A legal write to CTRL sets IE to its bit 0, if it covers lane 3 (R26). -/
theorem step_write_ctrl {s : State} {off : Offset} {n : Nat} {v : Word32} {rest : List Move}
    (h : s.Presents (.write off n v) rest) (hl : LegalSize off n) (hoff : off.toNat / 4 = 2) :
    step s = .next (if n = 4 ∨ off.toNat % 4 = 3 then { s with schedule := rest, ieFlag := v.getLsbD 0 }
      else { s with schedule := rest }) := by
  obtain ⟨r, hr, hp⟩ := (regionAt_control off).2.1 hoff
  rw [step_write_lowLane h hl hr (.inr (.inl hp)) (fun hk => by simp [hp] at hk), hp, writeByte_ctrl]

/-- A legal write to KEY_LEN while BUSY = 0 sets LEN to its low byte, if it covers lane 3 (R27). -/
theorem step_write_keyLen {s : State} {off : Offset} {n : Nat} {v : Word32} {rest : List Move}
    (h : s.Presents (.write off n v) rest) (hl : LegalSize off n) (hoff : off.toNat / 4 = 3)
    (hidle : s.pending = none) :
    step s = .next (if n = 4 ∨ off.toNat % 4 = 3 then { s with
      schedule := rest, operands := { s.operands with keyLen := BitVec.ofNat 8 v.toNat } }
      else { s with schedule := rest }) := by
  obtain ⟨r, hr, hp⟩ := (regionAt_control off).2.2 hoff
  rw [step_write_lowLane h hl hr (.inr (.inr hp)) (fun _ => hidle), hp, writeByte_keyLen]

end Sys2Proof.Machine
end

section
/-! SUPPORT. Writes to the operand storage byte by byte (10_state R31 to R36, 20_memory R62, R65). -/

namespace Sys2Proof.Machine

/-- The places in which every bit is stored, with their sizes in bytes (R24). -/
def operandSize : Place → Option Nat
  | .argHi | .argLo | .opa | .opb => some 4
  | .key | .din => some 16
  | .msg => some 64
  | _ => none

theorem regionAt_operand : ∀ off : Offset, OperandStorage off →
    ∃ r ∈ regionAt off, (operandSize r.place).isSome = true := by decide +kernel

theorem registerMap_operandSize : ∀ r ∈ registerMap, ∀ n ∈ operandSize r.place, n = r.size := by decide

theorem regionAt_operand_index {off : Offset} {r : Region} {n : Nat} (hr : regionAt off = some r)
    (hn : operandSize r.place = some n) : off.toNat - r.base < n := by
  obtain ⟨hmem, hlo, hhi⟩ := (regionAt_eq_some_iff off r).1 hr
  rw [registerMap_operandSize r hmem n hn]
  omega

/-- A place and the index in it determine the offset (R24). -/
theorem offset_unique {a off : Offset} {r q : Region} (hr : regionAt off = some r) (hq : regionAt a = some q)
    (hplace : q.place = r.place) (hidx : a.toNat - q.base = off.toNat - r.base) : a = off := by
  have hbase : ∀ r ∈ registerMap, ∀ q ∈ registerMap, q.place = r.place → q.base = r.base := by decide
  obtain ⟨hrmem, hrlo, -⟩ := (regionAt_eq_some_iff off r).1 hr
  obtain ⟨hqmem, hqlo, -⟩ := (regionAt_eq_some_iff a q).1 hq
  have := hbase r hrmem q hqmem hplace
  exact BitVec.eq_of_toNat_eq (by omega)

theorem laneByte_toNat (x : Word32) (k : Nat) : (laneByte x k).toNat = x.toNat / 2 ^ (24 - 8 * k) % 2 ^ 8 := by
  rw [laneByte, BitVec.extractLsb'_toNat, Nat.shiftRight_eq_div_pow]

theorem laneByte_setLane (x : Word32) (b : Byte) {i j : Nat} (hi : i < 4) (hj : j < 4) :
    laneByte (setLane x i b) j = if j = i then b else laneByte x j := by
  apply BitVec.eq_of_toNat_eq
  rw [apply_ite BitVec.toNat, laneByte_toNat, laneByte_toNat]
  obtain rfl | rfl | rfl | rfl : i = 0 ∨ i = 1 ∨ i = 2 ∨ i = 3 := by omega
  all_goals
    simp only [setLane, append_toNat, BitVec.extractLsb'_toNat, Nat.shiftRight_eq_div_pow]
    obtain rfl | rfl | rfl | rfl : j = 0 ∨ j = 1 ∨ j = 2 ∨ j = 3 := by omega
    all_goals split <;> omega

theorem wordByte_setWordByte (w : AesWord) (b : Byte) {i j : Nat} (hi : i < 4) (hj : j < 4) :
    wordByte (setWordByte w i b) j = if j = i then b else wordByte w j := by
  obtain rfl | rfl | rfl | rfl : i = 0 ∨ i = 1 ∨ i = 2 ∨ i = 3 := by omega
  all_goals
    obtain rfl | rfl | rfl | rfl : j = 0 ∨ j = 1 ∨ j = 2 ∨ j = 3 := by omega
    all_goals rfl

theorem vget_vset {n : Nat} (w : Window n) (b : Byte) {i j : Nat} (hi : i < n) :
    vget (vset w i b) j = if j = i then b else vget w j := by
  split
  · next h => rw [h, vget_vset_self w hi]
  · next h => rw [vget_vset_ne w (Ne.symm h)]

theorem append_high (x y : Word32) : (x ++ y : Word64).extractLsb' 32 32 = x := by
  apply BitVec.eq_of_toNat_eq
  rw [BitVec.extractLsb'_toNat, Nat.shiftRight_eq_div_pow, append_toNat]
  omega

theorem append_low (x y : Word32) : (x ++ y : Word64).extractLsb' 0 32 = y := by
  apply BitVec.eq_of_toNat_eq
  rw [BitVec.extractLsb'_toNat, Nat.shiftRight_zero, append_toNat]
  omega

/-- A byte written to a place is read back, and the place's other bytes stay. -/
theorem placeByte_writeByte_self {p : Place} {n : Nat} (hp : operandSize p = some n) {i j : Nat} (hi : i < n)
    (hj : j < n) (b : Byte) (s : State) :
    placeByte p j (s.writeByte p i b) = if j = i then b else placeByte p j s := by
  cases p <;> simp only [operandSize, reduceCtorEq, Option.some.injEq] at hp <;> subst hp <;>
    simp only [placeByte, State.writeByte, Operands.writeByte, append_high, append_low]
  · exact laneByte_setLane _ b hi hj
  · exact laneByte_setLane _ b hi hj
  · exact wordByte_setWordByte _ b hi hj
  · exact wordByte_setWordByte _ b hi hj
  · exact vget_vset _ b hi
  · exact vget_vset _ b hi
  · exact vget_vset _ b hi

/-- A byte written to one place leaves the others, the other half of ARG among them. -/
theorem placeByte_writeByte_ne {p q : Place} {n : Nat} (hp : operandSize p = some n) (hq : q ≠ p) (i j : Nat) (b : Byte)
    (s : State) : placeByte q j (s.writeByte p i b) = placeByte q j s := by
  by_cases harg : (p = .argHi ∧ q = .argLo) ∨ (p = .argLo ∧ q = .argHi)
  · rcases harg with ⟨rfl, rfl⟩ | ⟨rfl, rfl⟩
    · simp only [placeByte, State.writeByte, Operands.writeByte, append_low]
    · simp only [placeByte, State.writeByte, Operands.writeByte, append_high]
  · cases p <;> simp only [operandSize, reduceCtorEq] at hp <;> cases q <;> simp at hq harg <;> rfl

/-- A byte written to the operand storage is the byte at its own offset, and every other byte is as before. -/
theorem byteAt_writeByte {off : Offset} {r : Region} {n : Nat} (hr : regionAt off = some r)
    (hp : operandSize r.place = some n) (b : Byte) (s : State) (a : Offset) :
    (s.writeByte r.place (off.toNat - r.base) b).byteAt a = if a = off then some b else s.byteAt a := by
  have hi := regionAt_operand_index hr hp
  rw [State.byteAt, State.byteAt]
  cases hq : regionAt a with
  | none =>
    have hne : a ≠ off := fun h => by simp [h, hr] at hq
    rw [if_neg hne, Option.map_none, Option.map_none]
  | some q =>
    simp only [Option.map_some]
    by_cases hplace : q.place = r.place
    · have hj := regionAt_operand_index hq (hplace ▸ hp)
      rw [hplace, placeByte_writeByte_self hp hi hj]
      by_cases hidx : a.toNat - q.base = off.toNat - r.base
      · rw [if_pos hidx, if_pos (offset_unique hr hq hplace hidx)]
      · have hne : a ≠ off := by
          rintro rfl
          exact hidx (by rw [Option.some.inj (hq.symm.trans hr)])
        rw [if_neg hidx, if_neg hne]
    · have hne : a ≠ off := by
        rintro rfl
        exact hplace (by rw [Option.some.inj (hq.symm.trans hr)])
      rw [placeByte_writeByte_ne hp hplace, if_neg hne]

theorem lane_toNat {off : Offset} (ha : off.toNat % 4 = 0) {k : Nat} (hk : k < 4) :
    (off + BitVec.ofNat 10 k).toNat = off.toNat + k := by
  rw [BitVec.toNat_add, BitVec.toNat_ofNat]
  omega

/-- The first `m` lanes of a word written to the operand storage are the bytes at the offsets of the access, and every
other byte is as before. -/
theorem byteAt_writeLanes {off : Offset} {r : Region} {n : Nat} (hr : regionAt off = some r)
    (hp : operandSize r.place = some n) (ha : off.toNat % 4 = 0) (v : Word32) (s : State) (a : Offset) {m : Nat}
    (hm : m ≤ 4) :
    ((List.range m).foldl (fun s k => s.writeByte r.place (off.toNat - r.base + k) (laneByte v k)) s).byteAt a =
      if off.toNat ≤ a.toNat ∧ a.toNat < off.toNat + m then some (laneByte v (a.toNat - off.toNat))
      else s.byteAt a := by
  induction m with
  | zero => rw [if_neg (by omega)]; rfl
  | succ m ih =>
    obtain ⟨hreg, hidx⟩ := regionAt_lanes off ha r hr m (by omega)
    have hlane := lane_toNat ha (k := m) (by omega)
    have hthis : a = off + BitVec.ofNat 10 m ↔ a.toNat = off.toNat + m := by rw [← BitVec.toNat_inj, hlane]
    rw [List.range_succ, List.foldl_append, List.foldl_cons, List.foldl_nil, ← hidx, byteAt_writeByte hreg hp,
      ih (by omega)]
    by_cases h : a.toNat = off.toNat + m
    · rw [if_pos (hthis.2 h), if_pos (by omega), h, Nat.add_sub_cancel_left]
    · rw [if_neg (mt hthis.1 h)]
      exact if_congr (by omega) rfl rfl

/-- A write to the operand storage changes the operand registers only. -/
theorem writePlace_operand {p : Place} (hp : (operandSize p).isSome = true) (i n : Nat) (v : Word32) (s : State) :
    s.writePlace p i n v = { s with operands := (s.writePlace p i n v).operands } := by
  have hother : p ≠ .status ∧ p ≠ .ctrl := by
    constructor <;> rintro rfl <;> cases hp
  have shape := writePlace_shape p i n v s
  generalize s.writePlace p i n v = t at shape
  exact shape.rest.trans
    (by rw [shape.ieFlag_eq hother.2, shape.doneFlag_eq hother.1, shape.error_eq hother.1])

end Sys2Proof.Machine
end

section
/-! Writes to the operand storage and to the control registers, and the clearing of an error (10_state, 20_memory,
60_exceptions R206). -/

namespace Sys2Proof.Machine

/-- Settles O44: each byte of the access is written at its own offset, one after the other. -/
theorem operandWritesStoreTheirBytes : Obligations.OperandWritesStoreTheirBytes := by
  intro s off n v rest hp hl hop h
  have hb : s.busy = false := by simp [State.busy, hp]
  obtain ⟨r, hr, hc, hres⟩ := resolve_write (busy := s.busy) hl (.inr ⟨hb, .inr hop⟩)
  obtain ⟨r', hr', hsome⟩ := regionAt_operand off hop
  obtain rfl : r = r' := Option.some.inj (hr.symm.trans hr')
  obtain ⟨size, hsize⟩ := Option.isSome_iff_exists.1 hsome
  refine ⟨_, step_write_stored h hres hc, writePlace_operand hsome .., ?_⟩
  rcases hl with rfl | ⟨rfl, halign⟩
  · have hbyte (a : Offset) := byteAt_writeByte hr hsize (v.extractLsb' 0 8) { s with schedule := rest } a
    rw [State.writePlace, if_pos rfl]
    refine ⟨fun _ => ?_, fun h4 => absurd h4 (by decide), fun a ha => ?_⟩
    · rw [hbyte, if_pos rfl]
      rfl
    · have hne : a ≠ off := by
        rintro rfl
        omega
      rw [hbyte, if_neg hne]
      rfl
  · have hbyte (a : Offset) := byteAt_writeLanes hr hsize halign v { s with schedule := rest } a (m := 4) le_rfl
    rw [State.writePlace, if_neg (by decide)]
    refine ⟨fun h1 => absurd h1 (by decide), fun _ k hk => ?_, fun a ha => ?_⟩
    · have hlane := lane_toNat halign hk
      rw [hbyte, if_pos (by omega), hlane, Nat.add_sub_cancel_left, laneByte, BitVec.extractLsb',
        Nat.shiftRight_eq_div_pow]
    · rw [hbyte, if_neg (by omega)]
      rfl

/-- Settles O45: each of the three registers takes the low byte of the value in lane 3, and nothing in the others. -/
theorem controlRegisterWrites : Obligations.ControlRegisterWrites := by
  intro s off n v rest hl h
  refine ⟨fun hoff => ?status, fun hoff => ?ctrl, fun hp hoff => ?keyLen, fun hn hoff => ?otherLanes⟩
  case status =>
    rcases hoff with rfl | ⟨rfl, rfl⟩
    · rw [step_write_status h hl rfl, if_pos (.inr rfl)]
    · rw [step_write_status h hl rfl, if_pos (.inl rfl)]
  case ctrl =>
    rcases hoff with rfl | ⟨rfl, rfl⟩
    · rw [step_write_ctrl h hl rfl, if_pos (.inr rfl)]
    · rw [step_write_ctrl h hl rfl, if_pos (.inl rfl)]
  case keyLen =>
    rcases hoff with rfl | ⟨rfl, rfl⟩
    · rw [step_write_keyLen h hl rfl hp, if_pos (.inr rfl)]
    · rw [step_write_keyLen h hl rfl hp, if_pos (.inl rfl)]
  case otherLanes =>
    simp only [List.mem_cons, List.not_mem_nil, or_false] at hoff
    rcases hoff with hoff | ⟨hp, hoff⟩
    · have hlane : ¬ (n = 4 ∨ off.toNat % 4 = 3) := by omega
      rcases (by omega : off.toNat / 4 = 1 ∨ off.toNat / 4 = 2) with h1 | h2
      · rw [step_write_status h hl h1, if_neg hlane]
      · rw [step_write_ctrl h hl h2, if_neg hlane]
    · have hlane : ¬ (n = 4 ∨ off.toNat % 4 = 3) := by omega
      rw [step_write_keyLen h hl (by omega) hp, if_neg hlane]

/-- Settles O46: both accesses write lane 3 of STATUS. -/
theorem clearingAnError : Obligations.ClearingAnError := by
  intro s v rest hv h
  have hstep : step s = .next { s with
      schedule := rest, doneFlag := s.doneFlag && !v.getLsbD 1, error := none } := by
    rcases h with h | h
    · have hwrite := (controlRegisterWrites s 0x004 4 v rest (.inr ⟨rfl, rfl⟩) h).1 (.inr ⟨rfl, rfl⟩)
      rwa [if_pos hv] at hwrite
    · have hwrite := (controlRegisterWrites s 0x007 1 v rest (.inl rfl) h).1 (.inl rfl)
      rwa [if_pos hv] at hwrite
  exact ⟨_, hstep, rfl, rfl, rfl, fun h1 => (congrArg (s.doneFlag && !·) h1).trans (Bool.and_true _)⟩

end Sys2Proof.Machine
end

section
/-! SUPPORT. What a host access leaves alone (60_exceptions R203, 20_memory R70), and which output each command's effect
writes (10_state R25, R28, R32, R37 to R41). -/

namespace Sys2Proof.Machine

/-- What the commands produce: the output state and MDV (R43, R25). -/
def State.outputs (s : State) :=
  (s.res, s.rk, s.kcount, s.padlen, s.pad, s.md, s.mdvFlag)

/-- A step that keeps the outputs keeps MDV, and asks nothing more. -/
theorem outputs_kept {s t : State} {Q : Prop} (h : t.outputs = s.outputs) :
    (s.mdvFlag = true → t.mdvFlag = true) ∧ (t.outputs ≠ s.outputs → Q) := by
  have hmdv : t.mdvFlag = s.mdvFlag := congrArg (·.2.2.2.2.2.2) h
  exact ⟨fun hs => hmdv.trans hs, fun hne => absurd h hne⟩

/-- From `s` to `t` the outputs stay, and so do a pending command and, while it is pending, the operands. -/
structure HostFrame (s t : State) : Prop where
  outputs_eq : t.outputs = s.outputs
  pending_eq : s.pending ≠ none → t.pending = s.pending
  operands_eq : s.pending ≠ none → t.operands = s.operands

theorem busRead_hostFrame (off : Offset) (n : Nat) (s : State) : HostFrame s (busRead off n s) := by
  have hframe := (busRead_shape off n s).1
  generalize busRead off n s = t at hframe
  rw [hframe]
  exact ⟨rfl, fun _ => rfl, fun _ => rfl⟩

theorem busWrite_hostFrame {off : Offset} {n : Nat} {v : Word32} {s t : State} (h : busWrite off n v s = .next t) :
    HostFrame s t := by
  rcases busWrite_cases off n v s with ⟨e, -, hw⟩ | ⟨i, hr, hw⟩ | ⟨p, i, hr, -, hw⟩ <;> rw [hw] at h
  · cases h
    rw [State.raise_eq]
    exact ⟨rfl, fun _ => rfl, fun _ => rfl⟩
  · have hp := pending_none_of_resolve_cmd hr
    rcases issue_next_cases hp h with ⟨-, rfl⟩ | ⟨-, e, rfl⟩ | ⟨-, j, -, -, rfl⟩ <;>
      exact ⟨rfl, fun hne => absurd hp hne, fun hne => absurd hp hne⟩
  · cases h
    refine ⟨by simp [State.outputs], fun _ => State.writePlace_pending .., fun hne => ?_⟩
    have hplace := resolve_write_busy (State.busy_of_pending hne ▸ hr)
    exact (writePlace_shape p i n v s).operands_eq hplace

/-- A host access leaves the outputs and a pending command alone. -/
theorem step_host_frame {s t : State} {a : Access} {rest : List Move} (h : s.Presents a rest)
    (ht : step s = .next t) : HostFrame s t := by
  cases a with
  | read off n =>
    rw [step_read h] at ht
    cases ht
    obtain ⟨ho, hp, hops⟩ := busRead_hostFrame off n { s with schedule := rest }
    exact ⟨ho, hp, hops⟩
  | write off n v =>
    rw [step_write h] at ht
    obtain ⟨ho, hp, hops⟩ := busWrite_hostFrame ht
    exact ⟨ho, hp, hops⟩

/-- A host access has a step only while reset is not asserted (R242). -/
theorem step_host_presents {s t : State} {a : Access} {rest : List Move} (hs : s.schedule = .host a :: rest)
    (ht : step s = .next t) : s.Presents a rest := by
  refine ⟨hs, Bool.eq_false_of_not_eq_true fun hreset => ?_⟩
  simp [step, nextMove, hs, hostMove, hreset] at ht

/-- The outputs a command's effect can change are those its rule names, and no effect clears MDV. -/
theorem commandEffect_writes (i : Instr) (o : Operands) (s : State) :
    (s.mdvFlag = true → (commandEffect i o s).mdvFlag = true) ∧
    ((commandEffect i o s).res ≠ s.res → i ∈ [.boXor, .boRot, .boSub] ∨ ∃ n, i = .boRcon n) ∧
    ((commandEffect i o s).rk ≠ s.rk ∨ (commandEffect i o s).kcount ≠ s.kcount →
      i ∈ [.ksInit, .ksStep, .ksExpand]) ∧
    ((commandEffect i o s).padlen ≠ s.padlen ∨ (commandEffect i o s).pad ≠ s.pad → i = .mdPadgen) ∧
    ((commandEffect i o s).md.h ≠ s.md.h → i ∈ [.mdInit, .mdLoaddig, .mdFinal] ∨ ∃ n, i = .mdUpdate n) ∧
    ((commandEffect i o s).md.count ≠ s.md.count →
      i ∈ [.mdInit, .mdLoaddig, .mdSetcnt, .mdFinal] ∨ ∃ n, i = .mdUpdate n) ∧
    ((commandEffect i o s).md.buf ≠ s.md.buf → i = .mdFinal ∨ ∃ n, i = .mdUpdate n) ∧
    ((commandEffect i o s).mdvFlag ≠ s.mdvFlag → i = .mdInit ∨ i = .mdLoaddig) := by
  cases i <;> simp [commandEffect]

theorem registerMap_status : ∀ r ∈ registerMap, r.place = .status → r.base = 0x004 ∧ r.size = 4 := by decide

/-- The two legal accesses that cover lane 3 of STATUS (R62). -/
theorem status_lane_offset {off : Offset} {n : Nat} (hl : LegalSize off n) (hoff : off.toNat / 4 = 1)
    (hlane : n = 4 ∨ off.toNat % 4 = 3) : off = 0x007 ∨ (off = 0x004 ∧ n = 4) := by
  rcases hl with rfl | ⟨rfl, halign⟩
  · exact .inl (BitVec.eq_of_toNat_eq (by simp; omega))
  · exact .inr ⟨BitVec.eq_of_toNat_eq (by simp; omega), rfl⟩

/-- A host write keeps a recorded error, but for a 1 written to STATUS.ERR, which clears it (R203, R206). -/
theorem step_write_error {s t : State} {off : Offset} {n : Nat} {v : Word32} {rest : List Move} {e : ErrorCode}
    (h : s.Presents (.write off n v) rest) (ht : step s = .next t) (he : s.error = some e) :
    t.error = some e ∨ (t.error = none ∧ v.getLsbD 2 = true ∧ (off = 0x007 ∨ (off = 0x004 ∧ n = 4))) := by
  have hw := (step_write h).symm.trans ht
  rcases busWrite_cases off n v { s with schedule := rest } with ⟨c, -, hb⟩ | ⟨i, hr, hb⟩ | ⟨p, i, hr, -, hb⟩ <;>
    rw [hb] at hw
  · cases hw
    exact .inl (by simp [he])
  · rcases issue_next_cases (pending_none_of_resolve_cmd hr) hw with ⟨-, rfl⟩ | ⟨hnone, -⟩ | ⟨hnone, -⟩
    · exact .inl he
    · cases hnone.symm.trans he
    · cases hnone.symm.trans he
  · cases hw
    by_cases hp : p = .status
    · obtain ⟨hl, r, hreg, hplace, -⟩ := resolve_ok hr
      obtain ⟨hmem, hlo, hhi⟩ := (regionAt_eq_some_iff off r).1 hreg
      obtain ⟨hbase, hsize⟩ := registerMap_status r hmem (hplace.trans hp)
      have hoff : off.toNat / 4 = 1 := by omega
      rw [step_write_status h hl hoff] at ht
      injection ht with ht
      rw [← ht]
      split
      · next hlane =>
        cases hbit : v.getLsbD 2 with
        | false => exact .inl he
        | true => exact .inr ⟨rfl, rfl, status_lane_offset hl hoff hlane⟩
      · exact .inl he
    · exact .inl (((writePlace_shape p i n v _).error_eq hp).trans he)

theorem driveReset_pending {s : State} (hp : s.pending = none) (b : Bool) : (s.driveReset b).pending = none := by
  unfold State.driveReset
  split
  · rfl
  · exact hp

/-- A word that issues a command stands in a 4-byte write at offset 0 (R66, R69). -/
theorem resolve_cmd_access {off : Offset} {n i : Nat} {busy : Bool} (h : resolve true off n busy = .ok (.cmd, i)) :
    off = 0x000 ∧ n = 4 := by
  obtain ⟨hsize, r, hr, hplace, -, hwrite⟩ := resolve_ok h
  obtain ⟨-, hword, -⟩ := hwrite rfl
  have hn : n = 4 := hword hplace
  have hoff : off.toNat < 4 := (regionAt_cmd off).2 ⟨r, hr, hplace⟩
  exact ⟨BitVec.eq_of_toNat_eq (by simp; omega), hn⟩

end Sys2Proof.Machine
end

section
/-! Rules of the whole machine (10_state, 60_exceptions, 70_reset). -/

namespace Sys2Proof.Machine

/-- Settles O54: a host access has a step, and it leaves the outputs and the pending command. -/
theorem hostAccessesLeaveAPendingCommand : Obligations.HostAccessesLeaveAPendingCommand := by
  intro s a rest h hp
  obtain ⟨t, ht⟩ := step_host_continues h
  obtain ⟨hout, hpending, hoperands⟩ := step_host_frame h ht
  simp only [State.outputs, Prod.mk.injEq] at hout
  obtain ⟨hres, hrk, hkcount, hpadlen, hpad, hmd, hmdv⟩ := hout
  exact ⟨t, ht, hpending hp, hoperands hp, hres, hrk, hkcount, hpadlen, hpad, hmd, hmdv⟩

/-- Settles O55: of the moves but reset only the completion changes outputs, and those its command's effect writes. -/
theorem outputsAreWrittenByTheirCommands : Obligations.OutputsAreWrittenByTheirCommands := by
  intro s t ht hnoreset
  rcases step_next_cases ht with ⟨-, rfl⟩ | ⟨p, hp, -, rfl⟩ | ⟨b, rest, hs, -⟩ | ⟨off, n, rest, hs, hreset, -⟩ |
    ⟨off, n, v, rest, hs, hreset, -⟩
  · exact outputs_kept rfl
  · obtain ⟨hmdv, hwrites⟩ := commandEffect_writes p.instr p.operands s.popMove
    exact ⟨hmdv, fun _ => ⟨p, hp, rfl, rfl, hwrites⟩⟩
  · exact absurd hs (hnoreset b rest)
  · exact outputs_kept (step_host_frame ⟨hs, hreset⟩ ht).outputs_eq
  · exact outputs_kept (step_host_frame ⟨hs, hreset⟩ ht).outputs_eq

/-- Settles O56: completions and reads keep a recorded error, and so do writes but those that clear it. -/
theorem firstErrorIsKept : Obligations.FirstErrorIsKept := by
  intro s t e ht he
  rcases step_next_cases ht with ⟨-, rfl⟩ | ⟨p, -, -, rfl⟩ | ⟨b, rest, hs, -⟩ | ⟨off, n, rest, -, -, rfl⟩ |
    ⟨off, n, v, rest, hs, hreset, -⟩
  · exact .inl he
  · exact .inl (by simpa using he)
  · exact .inr (.inr ⟨b, rest, hs⟩)
  · rcases (busRead_shape off n s.popMove).2 with hkept | ⟨hnone, -⟩
    · exact .inl (hkept.trans he)
    · cases hnone.symm.trans he
  · rcases step_write_error ⟨hs, hreset⟩ ht he with hkept | ⟨hnone, hbit, hoff⟩
    · exact .inl hkept
    · exact .inr (.inl ⟨hnone, off, n, v, rest, hs, hbit, hoff⟩)

/-- Settles O57: by whose move it is; a host access leaves the command pending, and the engine completes it. -/
theorem busyEndsByCompletionOrReset : Obligations.BusyEndsByCompletionOrReset := by
  intro s t p ht hp
  rcases s.schedule_cases with ⟨rest, hturn⟩ | hreset | ⟨a, rest, hs⟩
  · rw [step_engine_pending hturn hp] at ht
    rcases exec_next_cases ht with ⟨hnone, -⟩ | ⟨hnone, -⟩ | ⟨hnone, -⟩ | ⟨q, -, -, rfl⟩
    · cases hnone.symm.trans hp
    · cases hnone.symm.trans hp
    · cases hnone.symm.trans hp
    · exact .inr (.inl ⟨rfl, rfl, rest, hturn⟩)
  · exact .inr (.inr hreset)
  · have hkept := (step_host_frame (step_host_presents hs ht) ht).pending_eq (by simp [hp])
    exact .inl (hkept.trans hp)

/-- Settles O58: no move but a host write makes PENDING non-empty, and of the writes only one that issues a command. -/
theorem acceptanceIsACmdWrite : Obligations.AcceptanceIsACmdWrite := by
  intro s t p ht hp htp
  have hpop : s.popMove.pending = none := hp
  rcases step_next_cases ht with ⟨-, rfl⟩ | ⟨q, hq, -⟩ | ⟨b, rest, -, rfl⟩ | ⟨off, n, rest, -, -, rfl⟩ |
    ⟨off, n, v, rest, hs, hreset, hw⟩
  · cases hp.symm.trans htp
  · cases hp.symm.trans hq
  · cases (driveReset_pending hpop b).symm.trans htp
  · have hpending := congrArg State.pending (busRead_shape off n s.popMove).1
    cases (hpending.trans hp).symm.trans htp
  · rcases busWrite_cases off n v s.popMove with ⟨e, -, hb⟩ | ⟨i, hr, hb⟩ | ⟨q, i, -, -, hb⟩ <;> rw [hb] at hw
    · cases hw
      cases hpop.symm.trans ((State.raise_pending ..).symm.trans htp)
    · obtain ⟨rfl, rfl⟩ := resolve_cmd_access hr
      rcases issue_next_cases hpop hw with ⟨-, rfl⟩ | ⟨-, e, rfl⟩ | ⟨-, i, hd, -, rfl⟩
      · cases hp.symm.trans htp
      · cases hp.symm.trans htp
      · cases htp
        exact ⟨rfl, rfl, v, rest, ⟨hs, hreset⟩, hd⟩
    · cases hw
      cases hpop.symm.trans ((State.writePlace_pending ..).symm.trans htp)

end Sys2Proof.Machine
end
